-- ==== Sys2Proof/Word.lean ====
section
/-! DEFINITION. The word types of the block (00_scope.md R8, 30_encoding.md R80). -/

namespace Sys2Proof

/-- `CELL_WIDTH` = 8: one cell of the Register Image, one byte on the bus (00_scope.md R8). -/
abbrev Byte := BitVec 8

/-- `ADDR_WIDTH` = 4: a cell address 0..15, every value valid (00_scope.md R8, 30_encoding.md R82). -/
abbrev CellAddr := BitVec 4

/-- `RESP_VALUE_WIDTH` = 32: a response value, an integer operand's pattern, a binary32 pattern
(00_scope.md R8, 30_encoding.md R84, R85). -/
abbrev Word := BitVec 32

/-- `CMD_WIDTH` = 48: one command word (00_scope.md R8, 30_encoding.md R80). -/
abbrev CmdWord := BitVec 48

end Sys2Proof
end

