-- ==== Sys2Proof/Syntax.lean ====
section
/-! DEFINITION. The commands: one constructor for each row of spec/opcode_table.json, its operands at the
widths the command word gives them (30_encoding.md R80 to R87). -/

namespace Sys2Proof

/-- The five formats of a command word (30_encoding.md R81). -/
inductive Format where
  | n
  | a
  | ab
  | i
  | f
deriving DecidableEq, Repr

/-- The fifty commands (30_encoding.md R87). `a` is a cell address (R82), `b` a byte (R83), `v` the pattern of
a signed 32-bit integer (R84), `f` a binary32 pattern (R85). -/
inductive Instr where
  /-- INIT, format N (41_transactions.md R120). -/
  | init
  /-- REFRESH, format N (41_transactions.md R126). -/
  | refresh
  /-- COMMIT, format N (41_transactions.md R130). -/
  | commit
  /-- RSTDEF, format N (40_register_image.md R112). -/
  | rstdef
  /-- RDREG, format A (40_register_image.md R110). -/
  | rdreg (a : CellAddr)
  /-- WRREG, format AB (40_register_image.md R111). -/
  | wrreg (a : CellAddr) (b : Byte)
  /-- GET_LTC, format N (42_codec_integer.md R160). -/
  | getLtc
  /-- GET_CJT, format N (42_codec_integer.md R161). -/
  | getCjt
  /-- GET_LTHFT, format N (42_codec_integer.md R162). -/
  | getLthft
  /-- GET_LTLFT, format N (42_codec_integer.md R163). -/
  | getLtlft
  /-- GET_CJHF, format N (42_codec_integer.md R164). -/
  | getCjhf
  /-- GET_CJLF, format N (42_codec_integer.md R165). -/
  | getCjlf
  /-- GET_CJTO, format N (42_codec_integer.md R166). -/
  | getCjto
  /-- GET_AVG, format N (42_codec_integer.md R170). -/
  | getAvg
  /-- GET_TCTYPE, format N (42_codec_integer.md R171). -/
  | getTctype
  /-- GET_FAULTS, format N (42_codec_integer.md R172). -/
  | getFaults
  /-- SET_CJT, format I (42_codec_integer.md R180). -/
  | setCjt (v : Word)
  /-- SET_LTHFT, format I (42_codec_integer.md R181). -/
  | setLthft (v : Word)
  /-- SET_LTLFT, format I (42_codec_integer.md R182). -/
  | setLtlft (v : Word)
  /-- SET_CJHF, format I (42_codec_integer.md R183). -/
  | setCjhf (v : Word)
  /-- SET_CJLF, format I (42_codec_integer.md R184). -/
  | setCjlf (v : Word)
  /-- SET_CJTO, format I (42_codec_integer.md R185). -/
  | setCjto (v : Word)
  /-- SET_AVG, format I (42_codec_integer.md R186). -/
  | setAvg (v : Word)
  /-- SET_TCTYPE, format I (42_codec_integer.md R187). -/
  | setTctype (v : Word)
  /-- GETC_LTC, format N (43_codec_float.md R210). -/
  | getcLtc
  /-- GETC_CJT, format N (43_codec_float.md R211). -/
  | getcCjt
  /-- GETC_LTHFT, format N (43_codec_float.md R212). -/
  | getcLthft
  /-- GETC_LTLFT, format N (43_codec_float.md R213). -/
  | getcLtlft
  /-- GETC_CJHF, format N (43_codec_float.md R214). -/
  | getcCjhf
  /-- GETC_CJLF, format N (43_codec_float.md R215). -/
  | getcCjlf
  /-- GETC_CJTO, format N (43_codec_float.md R216). -/
  | getcCjto
  /-- SETC_CJT, format F (43_codec_float.md R231). -/
  | setcCjt (f : Word)
  /-- SETC_LTHFT, format F (43_codec_float.md R232). -/
  | setcLthft (f : Word)
  /-- SETC_LTLFT, format F (43_codec_float.md R233). -/
  | setcLtlft (f : Word)
  /-- SETC_CJHF, format F (43_codec_float.md R234). -/
  | setcCjhf (f : Word)
  /-- SETC_CJLF, format F (43_codec_float.md R235). -/
  | setcCjlf (f : Word)
  /-- SETC_CJTO, format F (43_codec_float.md R236). -/
  | setcCjto (f : Word)
  /-- GETF_LTC, format N (43_codec_float.md R220). -/
  | getfLtc
  /-- GETF_CJT, format N (43_codec_float.md R221). -/
  | getfCjt
  /-- GETF_LTHFT, format N (43_codec_float.md R222). -/
  | getfLthft
  /-- GETF_LTLFT, format N (43_codec_float.md R223). -/
  | getfLtlft
  /-- GETF_CJHF, format N (43_codec_float.md R224). -/
  | getfCjhf
  /-- GETF_CJLF, format N (43_codec_float.md R225). -/
  | getfCjlf
  /-- GETF_CJTO, format N (43_codec_float.md R226). -/
  | getfCjto
  /-- SETF_CJT, format F (43_codec_float.md R241). -/
  | setfCjt (f : Word)
  /-- SETF_LTHFT, format F (43_codec_float.md R242). -/
  | setfLthft (f : Word)
  /-- SETF_LTLFT, format F (43_codec_float.md R243). -/
  | setfLtlft (f : Word)
  /-- SETF_CJHF, format F (43_codec_float.md R244). -/
  | setfCjhf (f : Word)
  /-- SETF_CJLF, format F (43_codec_float.md R245). -/
  | setfCjlf (f : Word)
  /-- SETF_CJTO, format F (43_codec_float.md R246). -/
  | setfCjto (f : Word)
deriving DecidableEq, Repr

end Sys2Proof
end

