-- ==== Sys2Proof/Decode.lean ====
section
/-! DEFINITION. The decoder, total on all 2^48 words and rejecting by name (30_encoding.md R86, R89), and after
it the encoder (R80, R81, R87). -/

namespace Sys2Proof

/-- Why a word is no command. Both answer `E_ILLEGAL` (60_exceptions.md R301). -/
inductive Reject where
  /-- The opcode is in no row of the table (30_encoding.md R89). -/
  | unknownOpcode (op : Byte)
  /-- A must-be-zero field of the opcode's format is nonzero (30_encoding.md R81, R86). -/
  | mustBeZero (op : Byte)
deriving DecidableEq, Repr

/-- `OP`, bits 7:0 (30_encoding.md R80). -/
def opField (w : CmdWord) : Byte := w.extractLsb' 0 8

/-- `ADDR`, bits 11:8, the operand `a` (30_encoding.md R80, R82). -/
def addrField (w : CmdWord) : CellAddr := w.extractLsb' 8 4

/-- `RSV`, bits 15:12 (30_encoding.md R80). -/
def rsvField (w : CmdWord) : BitVec 4 := w.extractLsb' 12 4

/-- `DATA`, bits 47:16, the operands `v` and `f` (30_encoding.md R80, R84, R85). -/
def dataField (w : CmdWord) : Word := w.extractLsb' 16 32

/-- The operand `b` of format AB, bits 23:16 (30_encoding.md R83). -/
def byteField (w : CmdWord) : Byte := w.extractLsb' 16 8

/-- The mask of a format (30_encoding.md R81). -/
def Format.mask (fmt : Format) : CmdWord :=
  match fmt with
  | .n => 0xFFFFFFFFFFFF#48
  | .a => 0xFFFFFFFFF0FF#48
  | .ab => 0xFFFFFF00F0FF#48
  | .i => 0x00000000FFFF#48
  | .f => 0x00000000FFFF#48

/-- The row of the opcode map with opcode `op`, its operands filled in (30_encoding.md R87). -/
def rowOf (op : Byte) (a : CellAddr) (b : Byte) (d : Word) : Option Instr :=
  match op.toNat with
  | 0x01 => some .init
  | 0x02 => some .refresh
  | 0x03 => some .commit
  | 0x04 => some .rstdef
  | 0x10 => some (.rdreg a)
  | 0x11 => some (.wrreg a b)
  | 0x20 => some .getLtc
  | 0x21 => some .getCjt
  | 0x22 => some .getLthft
  | 0x23 => some .getLtlft
  | 0x24 => some .getCjhf
  | 0x25 => some .getCjlf
  | 0x26 => some .getCjto
  | 0x27 => some .getAvg
  | 0x28 => some .getTctype
  | 0x29 => some .getFaults
  | 0x31 => some (.setCjt d)
  | 0x32 => some (.setLthft d)
  | 0x33 => some (.setLtlft d)
  | 0x34 => some (.setCjhf d)
  | 0x35 => some (.setCjlf d)
  | 0x36 => some (.setCjto d)
  | 0x37 => some (.setAvg d)
  | 0x38 => some (.setTctype d)
  | 0x40 => some .getcLtc
  | 0x41 => some .getcCjt
  | 0x42 => some .getcLthft
  | 0x43 => some .getcLtlft
  | 0x44 => some .getcCjhf
  | 0x45 => some .getcCjlf
  | 0x46 => some .getcCjto
  | 0x51 => some (.setcCjt d)
  | 0x52 => some (.setcLthft d)
  | 0x53 => some (.setcLtlft d)
  | 0x54 => some (.setcCjhf d)
  | 0x55 => some (.setcCjlf d)
  | 0x56 => some (.setcCjto d)
  | 0x60 => some .getfLtc
  | 0x61 => some .getfCjt
  | 0x62 => some .getfLthft
  | 0x63 => some .getfLtlft
  | 0x64 => some .getfCjhf
  | 0x65 => some .getfCjlf
  | 0x66 => some .getfCjto
  | 0x71 => some (.setfCjt d)
  | 0x72 => some (.setfLthft d)
  | 0x73 => some (.setfLtlft d)
  | 0x74 => some (.setfCjhf d)
  | 0x75 => some (.setfCjlf d)
  | 0x76 => some (.setfCjto d)
  | _ => none

/-- The format of each command (30_encoding.md R87). -/
def Instr.format (i : Instr) : Format :=
  match i with
  | .init => .n
  | .refresh => .n
  | .commit => .n
  | .rstdef => .n
  | .rdreg _ => .a
  | .wrreg _ _ => .ab
  | .getLtc => .n
  | .getCjt => .n
  | .getLthft => .n
  | .getLtlft => .n
  | .getCjhf => .n
  | .getCjlf => .n
  | .getCjto => .n
  | .getAvg => .n
  | .getTctype => .n
  | .getFaults => .n
  | .setCjt _ => .i
  | .setLthft _ => .i
  | .setLtlft _ => .i
  | .setCjhf _ => .i
  | .setCjlf _ => .i
  | .setCjto _ => .i
  | .setAvg _ => .i
  | .setTctype _ => .i
  | .getcLtc => .n
  | .getcCjt => .n
  | .getcLthft => .n
  | .getcLtlft => .n
  | .getcCjhf => .n
  | .getcCjlf => .n
  | .getcCjto => .n
  | .setcCjt _ => .f
  | .setcLthft _ => .f
  | .setcLtlft _ => .f
  | .setcCjhf _ => .f
  | .setcCjlf _ => .f
  | .setcCjto _ => .f
  | .getfLtc => .n
  | .getfCjt => .n
  | .getfLthft => .n
  | .getfLtlft => .n
  | .getfCjhf => .n
  | .getfCjlf => .n
  | .getfCjto => .n
  | .setfCjt _ => .f
  | .setfLthft _ => .f
  | .setfLtlft _ => .f
  | .setfCjhf _ => .f
  | .setfCjlf _ => .f
  | .setfCjto _ => .f

/-- The opcode of each command (30_encoding.md R87). -/
def Instr.opcode (i : Instr) : Byte :=
  match i with
  | .init => 0x01#8
  | .refresh => 0x02#8
  | .commit => 0x03#8
  | .rstdef => 0x04#8
  | .rdreg _ => 0x10#8
  | .wrreg _ _ => 0x11#8
  | .getLtc => 0x20#8
  | .getCjt => 0x21#8
  | .getLthft => 0x22#8
  | .getLtlft => 0x23#8
  | .getCjhf => 0x24#8
  | .getCjlf => 0x25#8
  | .getCjto => 0x26#8
  | .getAvg => 0x27#8
  | .getTctype => 0x28#8
  | .getFaults => 0x29#8
  | .setCjt _ => 0x31#8
  | .setLthft _ => 0x32#8
  | .setLtlft _ => 0x33#8
  | .setCjhf _ => 0x34#8
  | .setCjlf _ => 0x35#8
  | .setCjto _ => 0x36#8
  | .setAvg _ => 0x37#8
  | .setTctype _ => 0x38#8
  | .getcLtc => 0x40#8
  | .getcCjt => 0x41#8
  | .getcLthft => 0x42#8
  | .getcLtlft => 0x43#8
  | .getcCjhf => 0x44#8
  | .getcCjlf => 0x45#8
  | .getcCjto => 0x46#8
  | .setcCjt _ => 0x51#8
  | .setcLthft _ => 0x52#8
  | .setcLtlft _ => 0x53#8
  | .setcCjhf _ => 0x54#8
  | .setcCjlf _ => 0x55#8
  | .setcCjto _ => 0x56#8
  | .getfLtc => 0x60#8
  | .getfCjt => 0x61#8
  | .getfLthft => 0x62#8
  | .getfLtlft => 0x63#8
  | .getfCjhf => 0x64#8
  | .getfCjlf => 0x65#8
  | .getfCjto => 0x66#8
  | .setfCjt _ => 0x71#8
  | .setfLthft _ => 0x72#8
  | .setfLtlft _ => 0x73#8
  | .setfCjhf _ => 0x74#8
  | .setfCjlf _ => 0x75#8
  | .setfCjto _ => 0x76#8

/-- The mnemonic of each command (30_encoding.md R87). -/
def Instr.mnemonic (i : Instr) : String :=
  match i with
  | .init => "INIT"
  | .refresh => "REFRESH"
  | .commit => "COMMIT"
  | .rstdef => "RSTDEF"
  | .rdreg _ => "RDREG"
  | .wrreg _ _ => "WRREG"
  | .getLtc => "GET_LTC"
  | .getCjt => "GET_CJT"
  | .getLthft => "GET_LTHFT"
  | .getLtlft => "GET_LTLFT"
  | .getCjhf => "GET_CJHF"
  | .getCjlf => "GET_CJLF"
  | .getCjto => "GET_CJTO"
  | .getAvg => "GET_AVG"
  | .getTctype => "GET_TCTYPE"
  | .getFaults => "GET_FAULTS"
  | .setCjt _ => "SET_CJT"
  | .setLthft _ => "SET_LTHFT"
  | .setLtlft _ => "SET_LTLFT"
  | .setCjhf _ => "SET_CJHF"
  | .setCjlf _ => "SET_CJLF"
  | .setCjto _ => "SET_CJTO"
  | .setAvg _ => "SET_AVG"
  | .setTctype _ => "SET_TCTYPE"
  | .getcLtc => "GETC_LTC"
  | .getcCjt => "GETC_CJT"
  | .getcLthft => "GETC_LTHFT"
  | .getcLtlft => "GETC_LTLFT"
  | .getcCjhf => "GETC_CJHF"
  | .getcCjlf => "GETC_CJLF"
  | .getcCjto => "GETC_CJTO"
  | .setcCjt _ => "SETC_CJT"
  | .setcLthft _ => "SETC_LTHFT"
  | .setcLtlft _ => "SETC_LTLFT"
  | .setcCjhf _ => "SETC_CJHF"
  | .setcCjlf _ => "SETC_CJLF"
  | .setcCjto _ => "SETC_CJTO"
  | .getfLtc => "GETF_LTC"
  | .getfCjt => "GETF_CJT"
  | .getfLthft => "GETF_LTHFT"
  | .getfLtlft => "GETF_LTLFT"
  | .getfCjhf => "GETF_CJHF"
  | .getfCjlf => "GETF_CJLF"
  | .getfCjto => "GETF_CJTO"
  | .setfCjt _ => "SETF_CJT"
  | .setfLthft _ => "SETF_LTHFT"
  | .setfLtlft _ => "SETF_LTLFT"
  | .setfCjhf _ => "SETF_CJHF"
  | .setfCjlf _ => "SETF_CJLF"
  | .setfCjto _ => "SETF_CJTO"

/-- Decoding (30_encoding.md R86): the row with the word's opcode, refused if there is none, or if
`(w AND row.mask) != row.match`. -/
def decode (w : CmdWord) : Except Reject Instr :=
  match rowOf (opField w) (addrField w) (byteField w) (dataField w) with
  | none => .error (.unknownOpcode (opField w))
  | some i =>
    if w &&& i.format.mask = (opField w).setWidth 48 then .ok i else .error (.mustBeZero (opField w))

/-- A word from its fields, `RSV` zero (30_encoding.md R80). -/
def assemble (op : Byte) (a : CellAddr) (d : Word) : CmdWord := d ++ 0#4 ++ a ++ op

/-- The word of each command (30_encoding.md R80, R81, R87). -/
def encode (i : Instr) : CmdWord :=
  match i with
  | .init => assemble 0x01#8 0#4 0#32
  | .refresh => assemble 0x02#8 0#4 0#32
  | .commit => assemble 0x03#8 0#4 0#32
  | .rstdef => assemble 0x04#8 0#4 0#32
  | .rdreg a => assemble 0x10#8 a 0#32
  | .wrreg a b => assemble 0x11#8 a (b.setWidth 32)
  | .getLtc => assemble 0x20#8 0#4 0#32
  | .getCjt => assemble 0x21#8 0#4 0#32
  | .getLthft => assemble 0x22#8 0#4 0#32
  | .getLtlft => assemble 0x23#8 0#4 0#32
  | .getCjhf => assemble 0x24#8 0#4 0#32
  | .getCjlf => assemble 0x25#8 0#4 0#32
  | .getCjto => assemble 0x26#8 0#4 0#32
  | .getAvg => assemble 0x27#8 0#4 0#32
  | .getTctype => assemble 0x28#8 0#4 0#32
  | .getFaults => assemble 0x29#8 0#4 0#32
  | .setCjt v => assemble 0x31#8 0#4 v
  | .setLthft v => assemble 0x32#8 0#4 v
  | .setLtlft v => assemble 0x33#8 0#4 v
  | .setCjhf v => assemble 0x34#8 0#4 v
  | .setCjlf v => assemble 0x35#8 0#4 v
  | .setCjto v => assemble 0x36#8 0#4 v
  | .setAvg v => assemble 0x37#8 0#4 v
  | .setTctype v => assemble 0x38#8 0#4 v
  | .getcLtc => assemble 0x40#8 0#4 0#32
  | .getcCjt => assemble 0x41#8 0#4 0#32
  | .getcLthft => assemble 0x42#8 0#4 0#32
  | .getcLtlft => assemble 0x43#8 0#4 0#32
  | .getcCjhf => assemble 0x44#8 0#4 0#32
  | .getcCjlf => assemble 0x45#8 0#4 0#32
  | .getcCjto => assemble 0x46#8 0#4 0#32
  | .setcCjt f => assemble 0x51#8 0#4 f
  | .setcLthft f => assemble 0x52#8 0#4 f
  | .setcLtlft f => assemble 0x53#8 0#4 f
  | .setcCjhf f => assemble 0x54#8 0#4 f
  | .setcCjlf f => assemble 0x55#8 0#4 f
  | .setcCjto f => assemble 0x56#8 0#4 f
  | .getfLtc => assemble 0x60#8 0#4 0#32
  | .getfCjt => assemble 0x61#8 0#4 0#32
  | .getfLthft => assemble 0x62#8 0#4 0#32
  | .getfLtlft => assemble 0x63#8 0#4 0#32
  | .getfCjhf => assemble 0x64#8 0#4 0#32
  | .getfCjlf => assemble 0x65#8 0#4 0#32
  | .getfCjto => assemble 0x66#8 0#4 0#32
  | .setfCjt f => assemble 0x71#8 0#4 f
  | .setfLthft f => assemble 0x72#8 0#4 f
  | .setfLtlft f => assemble 0x73#8 0#4 f
  | .setfCjhf f => assemble 0x74#8 0#4 f
  | .setfCjlf f => assemble 0x75#8 0#4 f
  | .setfCjto f => assemble 0x76#8 0#4 f

/-- What the decoder reads from a word given as the opcode table numbers its bits, bit 0 the least significant.
A command is one 48-bit word, not stored in any memory, so there is no byte order to choose (log 16). -/
def decodeTableWord (nbits w : Nat) : Option Instr :=
  if w % 2 ^ nbits < 2 ^ 48 then
    match decode (BitVec.ofNat 48 (w % 2 ^ nbits)) with
    | .ok i => some i
    | .error _ => none
  else none

end Sys2Proof
end

