-- ==== Sys2Proof/Config.lean ====
section
/-! DEFINITION. What an implementation fixes (00_scope.md R8) and the free values the model leaves open.
Parameters with a default are plain data, held in `State.params`, so that a claim about every state is a
claim about every value of them (log 6). Parameters without a value, and free values, are opaque constants. -/

namespace Sys2Proof.Config

/-- An electrical level of the select line (10_state.md R42). -/
inductive Level where
  | low
  | high
deriving DecidableEq, Repr, Inhabited

/-- What the environment answers to one `BusXchg`: a byte, or `Fail` (10_state.md R45). -/
inductive BusAnswer where
  | byte (b : Byte)
  | fail
deriving DecidableEq, Repr, Inhabited

/-- The clock mode of the bus, its polarity and phase (41_transactions.md R124). -/
structure BusMode where
  polarity : Bool
  phase : Bool
deriving DecidableEq, Repr, Inhabited

/-- The order in which a byte's bits go over the wire (20_memory.md R62, 41_transactions.md R124). -/
inductive BitOrder where
  | msbFirst
  | lsbFirst
deriving DecidableEq, Repr, Inhabited

/-- The parameters that have a default (00_scope.md R8). -/
structure Params where
  /-- `FACTORY_DEFAULTS`, the table RSTDEF loads (10_state.md R52). -/
  factoryDefaults : Vector Byte 16
  /-- `READ_FILL`, the byte sent in each data exchange of a read frame (00_scope.md R8). -/
  readFill : Byte
  /-- `CS_ACTIVE_LEVEL`, the select line's level while the device is selected (00_scope.md R8). -/
  csActiveLevel : Level
deriving DecidableEq, Repr

/-- The defaults the spec gives the parameters (00_scope.md R8, 10_state.md R52). -/
def defaults : Params where
  factoryDefaults := #v[0x00#8, 0x03#8, 0xFF#8, 0x7F#8, 0xC0#8, 0x7F#8, 0xFF#8, 0x80#8,
    0x00#8, 0x00#8, 0x00#8, 0x00#8, 0x00#8, 0x00#8, 0x00#8, 0x00#8]
  readFill := 0x00#8
  csActiveLevel := .low

/-- `BUS_CLOCK_HZ`: OPEN, no value, and no rule reads it (41_transactions.md R124; log 7). -/
opaque busClockHz : Nat

/-- `BUS_MODE`: OPEN, no value, and no rule reads it (41_transactions.md R124; log 7). -/
opaque busMode : BusMode

/-- `BUS_BIT_ORDER`: OPEN, no value, and no rule reads it (41_transactions.md R124; log 7). -/
opaque busBitOrder : BitOrder

/-- The environment's answer to the n-th exchange, where `State.busAnswers` does not say it: any byte or
`Fail` (20_memory.md R62, 93_implementation_defined.md I7). DESIGN CHOICE, safe: a free value (log 2). -/
opaque freeBusAnswer : Nat → BusAnswer

/-- The sign bit of a NaN that an operation delivers. DESIGN CHOICE, safe: a free value (log 8). -/
opaque nanSign : Bool

/-- The low fraction bits of a NaN that an operation delivers. DESIGN CHOICE, safe: a free value (log 8). -/
opaque nanPayload : BitVec 22

end Sys2Proof.Config
end

