-- ==== Sys2Proof/Machine/State.lean ====
section
/-! DEFINITION. The state of the block (10_state.md), its inputs, and the ways a step can stop. -/

namespace Sys2Proof.Machine

/-- The Register Image as a memory: (address, byte) pairs in one canonical form, addresses strictly rising and
below 16. An address that is not listed is an undefined cell (10_state.md R30, R31; log 4). -/
abbrev Memory := List Host.Cell

/-- The sequencer's phase; `i` is the index of the next data byte (10_state.md R47). -/
inductive Phase where
  | idle
  | acq
  | sel
  | addr
  | data (i : Nat)
  | desel
  | rel
deriving DecidableEq, Repr

/-- A transaction's mode (10_state.md R47, 30_encoding.md R90). -/
inductive TxMode where
  | read
  | write
deriving DecidableEq, Repr

/-- What the sequencer holds of the transaction in progress: its mode and its data-byte count `N`
(10_state.md R47). -/
structure Transaction where
  mode : TxMode
  count : Nat
deriving DecidableEq, Repr

/-- One event of the bus trace `T` (10_state.md R44). -/
inductive BusEvent where
  | acquire
  | select
  | xchg (out inp : Byte)
  | xchgFail (out : Byte)
  | deselect
  | release
deriving DecidableEq, Repr

/-- One response on the host interface (10_state.md R46, 60_exceptions.md R300). -/
structure Response where
  code : BitVec 3
  value : Word
deriving DecidableEq, Repr

/-- The response codes that are ever returned (60_exceptions.md R300). -/
inductive RespCode where
  | ok
  | eIllegal
  | eReadonly
  | eNotinit
  | eBus
  | eFpdomain
deriving DecidableEq, Repr

/-- The model faults. -/
inductive Fault where
  /-- A command had to read cell `a` and the cell was undefined (60_exceptions.md R305, 92_eei_decisions.md D10,
  D33, 93_implementation_defined.md I1). The command records it; `step` answers it in every state whose record
  holds it, since no later command runs (R306). Safe: the machine stops. -/
  | uninitRead (a : CellAddr)
deriving DecidableEq, Repr

/-- The refusals. -/
inductive Refusal where
  /-- The command has no meaning in the model. Raised by no arm of `exec`: every command has its meaning.
  Safe: the model stops. -/
  | notModelled (mnemonic : String)
deriving DecidableEq, Repr

/-- The state. The first eleven fields are the block's (10_state.md R51, 60_exceptions.md R306, 00_scope.md R8);
the last three are the model's own inputs (log 1, log 2). -/
structure State where
  /-- The parameters that have a default, fixed for a run (00_scope.md R8; log 6). -/
  params : Config.Params
  /-- `x[0] .. x[15]` (10_state.md R30, R31). -/
  image : Memory
  /-- True once INIT has configured the select line (10_state.md R41). -/
  initialized : Bool
  /-- The select line is driven as an output (10_state.md R42). -/
  csConfigured : Bool
  /-- The device is selected (10_state.md R42). -/
  csAsserted : Bool
  /-- True between `BusAcquire` and `BusRelease` (10_state.md R43). -/
  busHeld : Bool
  /-- The sequencer's phase, `IDLE` between commands (10_state.md R47, R48). -/
  phase : Phase
  /-- The transaction in progress, none between commands (10_state.md R47). -/
  txn : Option Transaction
  /-- The bus trace `T`, oldest event first (10_state.md R44). -/
  trace : List BusEvent
  /-- The responses given so far, oldest first (70_reset_and_hazards.md R353). -/
  responses : List Response
  /-- The fault record, empty while no model fault was raised (60_exceptions.md R306). -/
  faultRecord : Option Fault
  /-- INPUT. The words the host has yet to issue, the next one first (10_state.md R46; log 1). -/
  commands : List CmdWord
  /-- INPUT. The environment's answers to the next exchanges (20_memory.md R62; log 2). -/
  busAnswers : List Config.BusAnswer
  /-- How many exchanges were made: the index of the free answer that stands where `busAnswers` is used up
  (log 2). -/
  exchanges : Nat
deriving DecidableEq, Repr

/-- The block after reset (10_state.md R51, 70_reset_and_hazards.md R330): every cell undefined, every control
bit false, the phase `IDLE`, the trace and the fault record empty. The parameters stand at their defaults
(log 6). DESIGN CHOICE: no response given, no command waiting, no answer laid down, no exchange made (log 3,
log 13). -/
def State.reset : State where
  params := Config.defaults
  image := []
  initialized := false
  csConfigured := false
  csAsserted := false
  busHeld := false
  phase := .idle
  txn := none
  trace := []
  responses := []
  faultRecord := none
  commands := []
  busAnswers := []
  exchanges := 0

end Sys2Proof.Machine
end

