-- ==== Sys2Proof/Machine/Ops.lean ====
section
/-! DEFINITION. The named operations: the memory of cells, `MemRead` and `MemWrite` (00_scope.md R13), the
response and the error response (R15, 60_exceptions.md R300, R311), the model fault (R305, R306) and the host's
port (10_state.md R46). The block has no trap to enter and none to return from (60_exceptions.md R311, R312):
`raise` is the whole of taking an error, `recordFault` the whole of taking the model fault. -/

namespace Sys2Proof.Machine

/-- The byte at an address; none where the memory lists nothing (10_state.md R31). -/
def Memory.read (m : Memory) (a : Nat) : Option Byte :=
  match m with
  | [] => none
  | (k, b) :: rest => if k = a then some b else Memory.read rest a

/-- The memory with byte `b` at address `a`, still in canonical form. -/
def Memory.write (m : Memory) (a : Nat) (b : Byte) : Memory :=
  match m with
  | [] => [(a, b)]
  | (k, c) :: rest =>
    if a < k then (a, b) :: (k, c) :: rest
    else if a = k then (a, b) :: rest
    else (k, c) :: Memory.write rest a b

/-- Addresses strictly rising from `lo` on and below 16 (10_state.md R30). -/
def Memory.wfFrom (lo : Nat) (m : Memory) : Bool :=
  match m with
  | [] => true
  | (k, _) :: rest => decide (lo ≤ k) && decide (k < 16) && Memory.wfFrom (k + 1) rest

/-- The canonical form: addresses strictly rising and below 16 (log 4). -/
def Memory.wf (m : Memory) : Bool := Memory.wfFrom 0 m

/-- `x[a]`, none while the cell is undefined (00_scope.md R13, 10_state.md R31). -/
def State.cell (s : State) (a : CellAddr) : Option Byte := s.image.read a.toNat

/-- `x[a] <- b`, which makes the cell defined (00_scope.md R13, 10_state.md R31). -/
def State.setCell (s : State) (a : CellAddr) (b : Byte) : State :=
  { s with image := s.image.write a.toNat b }

/-- A read of `x[a]` that must have a value; an undefined cell answers its address (60_exceptions.md R305). -/
def readCell (s : State) (a : CellAddr) : Except CellAddr Byte :=
  match s.cell a with
  | some b => .ok b
  | none => .error a

/-- The `n` cells from `a` on, lowest address first, or the lowest address that is undefined
(60_exceptions.md R305, 42_codec_integer.md R159). -/
def readFrom (s : State) (a : CellAddr) (n : Nat) : Except CellAddr (List Byte) :=
  match n with
  | 0 => .ok []
  | n + 1 =>
    match readCell s a with
    | .error e => .error e
    | .ok b =>
      match readFrom s (a + 1#4) n with
      | .error e => .error e
      | .ok bs => .ok (b :: bs)

/-- The bytes to the cells from `a` on, lowest address first. -/
def writeFrom (s : State) (a : CellAddr) (bs : List Byte) : State :=
  match bs with
  | [] => s
  | b :: rest => writeFrom (s.setCell a b) (a + 1#4) rest

/-- `b0 : b1 : …`, the first byte in the high bits (00_scope.md R11, 20_memory.md R60). -/
def concatBytes (bs : List Byte) : Nat := bs.foldl (fun acc b => acc * 256 + b.toNat) 0

/-- The low `n` bytes of `v`, the most significant first (00_scope.md R13, 20_memory.md R60). -/
def splitBytes (n : Nat) (v : Nat) : List Byte :=
  match n with
  | 0 => []
  | n + 1 => BitVec.ofNat 8 (v / 2 ^ (8 * n)) :: splitBytes n v

/-- `MemRead(a, n)` (00_scope.md R13, 20_memory.md R60). -/
def memRead (s : State) (a : CellAddr) (n : Nat) : Except CellAddr Nat :=
  match readFrom s a n with
  | .error e => .error e
  | .ok bs => .ok (concatBytes bs)

/-- `MemWrite(a, n, v)` (00_scope.md R13, 20_memory.md R60). -/
def memWrite (s : State) (a : CellAddr) (n : Nat) (v : Nat) : State := writeFrom s a (splitBytes n v)

/-- The 3-bit pattern of a response code (60_exceptions.md R300). -/
def RespCode.bits (c : RespCode) : BitVec 3 :=
  match c with
  | .ok => 0#3
  | .eIllegal => 1#3
  | .eReadonly => 2#3
  | .eNotinit => 3#3
  | .eBus => 4#3
  | .eFpdomain => 5#3

/-- `respond(code, value)`: the command ends with this response (00_scope.md R15, 60_exceptions.md R300). -/
def respond (c : RespCode) (v : Word) (s : State) : State :=
  { s with responses := s.responses ++ [⟨c.bits, v⟩] }

/-- `raise E_<name>`: the response with value 0 and no state change (00_scope.md R15, 60_exceptions.md R300,
R311). -/
def raise (c : RespCode) (s : State) : State := respond c 0#32 s

/-- The model fault is recorded, and nothing else changes (60_exceptions.md R305, R306; log 5). The spec's treatment of
this case is `fault`, not `any value` (93_implementation_defined.md I1, 92_eei_decisions.md D10, D33). -/
def recordFault (f : Fault) (s : State) : State := { s with faultRecord := some f }

/-- Go on with what a read gave, or record `UninitRead` at the undefined cell's address
(60_exceptions.md R305). -/
def withRead {α : Type} (r : Except CellAddr α) (s : State) (k : α → State) : State :=
  match r with
  | .error a => recordFault (.uninitRead a) s
  | .ok v => k v

/-- The host's next command word, taken from the queue of words it has yet to issue (10_state.md R46; log 1). -/
def takeCommand (s : State) : Option (CmdWord × State) :=
  match s.commands with
  | [] => none
  | w :: rest => some (w, { s with commands := rest })

/-- The host issues `w` as its next word (log 1). Nothing else changes: a fault that is recorded stays recorded
(60_exceptions.md R306). -/
def issueNext (s : State) (w : CmdWord) : State := { s with commands := w :: s.commands }

/-- The level the block drives the select line to; none while it does not drive it (10_state.md R42,
70_reset_and_hazards.md R331). -/
def State.csLevel (s : State) : Option Config.Level :=
  if s.csConfigured then
    match s.params.csActiveLevel, s.csAsserted with
    | .low, true => some .low
    | .low, false => some .high
    | .high, true => some .high
    | .high, false => some .low
  else none

end Sys2Proof.Machine
end

