-- ==== Sys2Proof/Machine/Operands.lean ====
section
/-! DEFINITION. The operand forms, the quantities with their cells and scales (30_encoding.md R95), and the
integer codec on mathematical integers with explicit narrowing (00_scope.md R10, R12, 42_codec_integer.md R150
to R157, R167). -/

namespace Sys2Proof.Machine

/-- `sext_N(v)` (00_scope.md R12). -/
def sext (n : Nat) (v : Int) : Int := (BitVec.ofInt n v).toInt

/-- `trunc_N(v) = v mod 2^N` (00_scope.md R12). -/
def trunc (n : Nat) (v : Int) : Nat := (BitVec.ofInt n v).toNat

/-- `v >>a k = floor(v / 2^k)` (00_scope.md R12). -/
def asr (v : Int) (k : Nat) : Int := v >>> k

/-- A response value from a signed integer: `trunc_32` (30_encoding.md R88, 42_codec_integer.md R159). -/
def signedValue (v : Int) : Word := BitVec.ofInt 32 v

/-- A response value from a byte or a nibble: `zext_32` (30_encoding.md R88, 42_codec_integer.md R159). -/
def unsignedValue (v : Nat) : Word := BitVec.ofNat 32 v

/-- The operand of format I, `v = sext_32(w[47:16])` (30_encoding.md R84). -/
def intOperand (v : Word) : Int := v.toInt

/-- The seven fixed-point quantities (30_encoding.md R87, R95). -/
inductive Quantity where
  | ltc
  | cjt
  | lthft
  | ltlft
  | cjhf
  | cjlf
  | cjto
deriving DecidableEq, Repr

/-- The first cell of a quantity (30_encoding.md R95, 10_state.md R32). -/
def Quantity.firstCell (q : Quantity) : CellAddr :=
  match q with
  | .ltc => 12#4
  | .cjt => 10#4
  | .lthft => 5#4
  | .ltlft => 7#4
  | .cjhf => 3#4
  | .cjlf => 4#4
  | .cjto => 9#4

/-- How many cells a quantity has (30_encoding.md R95). -/
def Quantity.cellCount (q : Quantity) : Nat :=
  match q with
  | .ltc => 3
  | .cjt => 2
  | .lthft => 2
  | .ltlft => 2
  | .cjhf => 1
  | .cjlf => 1
  | .cjto => 1

/-- The divisor from the raw value to °C (30_encoding.md R95). -/
def Quantity.scale (q : Quantity) : Nat :=
  match q with
  | .ltc => 128
  | .cjt => 64
  | .lthft => 16
  | .ltlft => 16
  | .cjhf => 1
  | .cjlf => 1
  | .cjto => 16

/-- `decLTC` of the 24-bit group (42_codec_integer.md R151). -/
def decLTC (w : Nat) : Int := asr (sext 24 w) 5

/-- `encLTC` as a 24-bit group (42_codec_integer.md R152). -/
def encLTC (v : Int) : Nat := trunc 24 (v * 32)

/-- `decCJT` of the 16-bit group (42_codec_integer.md R153). -/
def decCJT (w : Nat) : Int := asr (sext 16 w) 2

/-- `encCJT` as a 16-bit group (42_codec_integer.md R154). -/
def encCJT (v : Int) : Nat := trunc 16 (v * 4)

/-- `decS16` of the 16-bit group (42_codec_integer.md R155). -/
def decS16 (w : Nat) : Int := sext 16 w

/-- `encS16` as a 16-bit group (42_codec_integer.md R155). -/
def encS16 (v : Int) : Nat := trunc 16 v

/-- `decS8` of a byte (42_codec_integer.md R156). -/
def decS8 (w : Nat) : Int := sext 8 w

/-- `encS8` as a byte (42_codec_integer.md R156). -/
def encS8 (v : Int) : Nat := trunc 8 v

/-- The decode of each quantity, on the big-endian value of its cells (30_encoding.md R95). -/
def Quantity.decode (q : Quantity) (w : Nat) : Int :=
  match q with
  | .ltc => decLTC w
  | .cjt => decCJT w
  | .lthft => decS16 w
  | .ltlft => decS16 w
  | .cjhf => decS8 w
  | .cjlf => decS8 w
  | .cjto => decS8 w

/-- The encode of each quantity, to the big-endian value of its cells (30_encoding.md R97). That of LTC is a
function of the codec which no command calls (42_codec_integer.md R152). -/
def Quantity.encode (q : Quantity) (v : Int) : Nat :=
  match q with
  | .ltc => encLTC v
  | .cjt => encCJT v
  | .lthft => encS16 v
  | .ltlft => encS16 v
  | .cjhf => encS8 v
  | .cjlf => encS8 v
  | .cjto => encS8 v

/-- The raw value of a quantity in the image, or the lowest of its cells that is undefined
(42_codec_integer.md R159). -/
def readRaw (s : State) (q : Quantity) : Except CellAddr Int :=
  match memRead s q.firstCell q.cellCount with
  | .error a => .error a
  | .ok w => .ok (q.decode w)

/-- The cells of a quantity take the encode of `v` (42_codec_integer.md R169, R179). -/
def writeRaw (s : State) (q : Quantity) (v : Int) : State :=
  memWrite s q.firstCell q.cellCount (q.encode v)

/-- `getHi(c) = c[7:4]` (42_codec_integer.md R157). -/
def getHi (c : Byte) : BitVec 4 := c.extractLsb' 4 4

/-- `getLo(c) = c[3:0]` (42_codec_integer.md R157). -/
def getLo (c : Byte) : BitVec 4 := c.extractLsb' 0 4

/-- `putHi(c, v) = trunc_4(v) * 16 + c[3:0]` (42_codec_integer.md R157). -/
def putHi (c : Byte) (v : Int) : Byte := BitVec.ofInt 4 v ++ getLo c

/-- `putLo(c, v) = c[7:4] * 16 + trunc_4(v)` (42_codec_integer.md R157). -/
def putLo (c : Byte) (v : Int) : Byte := getHi c ++ BitVec.ofInt 4 v

end Sys2Proof.Machine
end

