-- ==== Sys2Proof/Machine/Binary32.lean ====
section
/-! DEFINITION. IEEE binary32 with round to nearest, ties to even, and subnormals kept (00_scope.md R16,
43_codec_float.md R200). Every finite binary32 is a whole multiple of 2^-149, so a finite value is held as its
sign and that whole number: each value but zero has one form, and every exact result is a quotient of two natural
numbers of such units, which `rne32` rounds. -/

namespace Sys2Proof.Machine

/-- A binary32 value. A NaN has no payload: no rule of the spec tells two NaNs apart. -/
inductive F32 where
  | nan
  | inf (neg : Bool)
  /-- The value `(-1)^neg * units * 2^-149`. -/
  | fin (neg : Bool) (units : Nat)
deriving DecidableEq, Repr

/-- How many units of 2^-149 make 1. -/
def unitsPerOne : Nat := 2 ^ 149

/-- The exponent field's step of a number of units: 0 below 2^24, where the spacing of binary32 is one unit. -/
def binade (units : Nat) : Nat := if units < 2 ^ 24 then 0 else units.log2 - 23

/-- The magnitude bits (exponent and fraction fields) of a number of units that is a binary32. -/
def magnitudeBits (units : Nat) : Nat := binade units * 2 ^ 23 + units / 2 ^ binade units

/-- The value of a pattern (IEEE 754 binary32; 30_encoding.md R85: every pattern is accepted). -/
def F32.ofBits (p : Word) : F32 :=
  let neg := p.msb
  let e := (p.extractLsb' 23 8).toNat
  let frac := (p.extractLsb' 0 23).toNat
  if e = 255 then (if frac = 0 then .inf neg else .nan)
  else if e = 0 then .fin neg frac
  else .fin neg ((2 ^ 23 + frac) * 2 ^ (e - 1))

/-- `bits(f)` (00_scope.md R16). Which NaN pattern stands for a NaN is a free value: no response shows one
(43_codec_float.md R209; log 8). -/
def F32.bits (f : F32) : Word :=
  match f with
  | .nan => BitVec.ofBool Config.nanSign ++ 0xFF#8 ++ 1#1 ++ Config.nanPayload
  | .inf neg => BitVec.ofBool neg ++ 0x7F800000#31
  | .fin neg units => BitVec.ofBool neg ++ BitVec.ofNat 31 (magnitudeBits units)

/-- The quotient `num / den` of natural numbers, to the nearest whole number, ties to even. -/
def divNearestEven (num den : Nat) : Nat :=
  let q := num / den
  let r := num % den
  if 2 * r < den then q
  else if den < 2 * r then q + 1
  else q + q % 2

/-- `rne32` of `(-1)^neg * (num / den) * 2^-149` (00_scope.md R16). The result has a 24-bit significand in quotient's binade; one of 2^128 and above is an infinity (PRESUMED, IEEE 754: log 12). -/
def rne32 (neg : Bool) (num den : Nat) : F32 :=
  let t := binade (num / den)
  let units := divNearestEven num (den * 2 ^ t) * 2 ^ t
  if units / unitsPerOne < 2 ^ 128 then .fin neg units else .inf neg

/-- The sign of an exact sum that is zero: minus only if both terms are (IEEE 754, round to nearest; log 12). -/
def zeroSumSign (a b : Bool) : Bool := a && b

/-- `fadd` (00_scope.md R16). -/
def fadd (x y : F32) : F32 :=
  match x, y with
  | .nan, _ => .nan
  | _, .nan => .nan
  | .inf a, .inf b => if a = b then .inf a else .nan
  | .inf a, .fin _ _ => .inf a
  | .fin _ _, .inf b => .inf b
  | .fin a m, .fin b n =>
    if a = b then rne32 a (m + n) 1
    else if m = n then .fin (zeroSumSign a b) 0
    else if n < m then rne32 a (m - n) 1
    else rne32 b (n - m) 1

/-- The value with its sign changed. -/
def fneg (x : F32) : F32 :=
  match x with
  | .nan => .nan
  | .inf a => .inf (!a)
  | .fin a m => .fin (!a) m

/-- `fsub` (00_scope.md R16). -/
def fsub (x y : F32) : F32 := fadd x (fneg y)

/-- `fmul` (00_scope.md R16). -/
def fmul (x y : F32) : F32 :=
  match x, y with
  | .nan, _ => .nan
  | _, .nan => .nan
  | .inf a, .inf b => .inf (a ^^ b)
  | .inf a, .fin b n => if n = 0 then .nan else .inf (a ^^ b)
  | .fin a m, .inf b => if m = 0 then .nan else .inf (a ^^ b)
  | .fin a m, .fin b n => rne32 (a ^^ b) (m * n) unitsPerOne

/-- `fdiv` (00_scope.md R16). A division by zero is IEEE 754's; no command makes one (43_codec_float.md R204,
log 12). -/
def fdiv (x y : F32) : F32 :=
  match x, y with
  | .nan, _ => .nan
  | _, .nan => .nan
  | .inf _, .inf _ => .nan
  | .inf a, .fin b _ => .inf (a ^^ b)
  | .fin a _, .inf b => .fin (a ^^ b) 0
  | .fin a m, .fin b n =>
    if n = 0 then (if m = 0 then .nan else .inf (a ^^ b))
    else rne32 (a ^^ b) (m * unitsPerOne) n

/-- `ftrunc`: the value rounded toward zero, for a finite one (00_scope.md R16). -/
def ftrunc (neg : Bool) (units : Nat) : Int :=
  if neg then -((units / unitsPerOne : Nat) : Int) else ((units / unitsPerOne : Nat) : Int)

/-- `C18 = rne32(1.8)` (00_scope.md R16, 43_codec_float.md R200). -/
def c18 : F32 := rne32 false (18 * unitsPerOne) 10

/-- A natural number as a binary32: the scales and the 32 of the Fahrenheit formula (43_codec_float.md R200,
R205). -/
def f32OfNat (n : Nat) : F32 := rne32 false (n * unitsPerOne) 1

/-- `toC_q(r) = rne32(r / s_q)` (43_codec_float.md R201). -/
def toC (q : Quantity) (r : Int) : F32 := rne32 (decide (r < 0)) (r.natAbs * unitsPerOne) q.scale

/-- `toF_q(r)`, with no `+ 32` for CJTO (43_codec_float.md R202). -/
def toF (q : Quantity) (r : Int) : F32 :=
  match q with
  | .cjto => fmul (toC .cjto r) c18
  | q => fadd (fmul (toC q r) c18) (f32OfNat 32)

/-- `fromC_q(c)`; none where it raises `E_FPDOMAIN` (43_codec_float.md R203). -/
def fromC (q : Quantity) (c : F32) : Option Int :=
  match fmul c (f32OfNat q.scale) with
  | .nan => none
  | .inf _ => none
  | .fin neg units =>
    if ftrunc neg units < -2147483648 ∨ 2147483648 ≤ ftrunc neg units then none else some (ftrunc neg units)

/-- `fromF_q(f)`, with no `- 32` for CJTO (43_codec_float.md R204). -/
def fromF (q : Quantity) (f : F32) : Option Int :=
  match q with
  | .cjto => fromC .cjto (fdiv f c18)
  | q => fromC q (fdiv (fsub f (f32OfNat 32)) c18)

end Sys2Proof.Machine
end

