-- ==== Sys2Proof/Machine/Flags.lean ====
section
/-! DEFINITION. The flags: the eight fault flags of SR (10_state.md R36) and the cold-junction bit of CR0 (R37).
The block has no condition codes, and no command computes a flag (R36). -/

namespace Sys2Proof.Machine

/-- The fault flags by name (10_state.md R36). -/
structure StatusFlags where
  cjRange : Bool
  tcRange : Bool
  cjHigh : Bool
  cjLow : Bool
  tcHigh : Bool
  tcLow : Bool
  ovuv : Bool
  openCircuit : Bool
deriving DecidableEq, Repr

/-- The flags of a status byte, bit 7 first (10_state.md R36). -/
def statusFlags (sr : Byte) : StatusFlags where
  cjRange := sr.getLsbD 7
  tcRange := sr.getLsbD 6
  cjHigh := sr.getLsbD 5
  cjLow := sr.getLsbD 4
  tcHigh := sr.getLsbD 3
  tcLow := sr.getLsbD 2
  ovuv := sr.getLsbD 1
  openCircuit := sr.getLsbD 0

/-- The status byte with these flags. -/
def StatusFlags.toByte (f : StatusFlags) : Byte :=
  BitVec.ofBool f.cjRange ++ BitVec.ofBool f.tcRange ++ BitVec.ofBool f.cjHigh ++ BitVec.ofBool f.cjLow ++
    BitVec.ofBool f.tcHigh ++ BitVec.ofBool f.tcLow ++ BitVec.ofBool f.ovuv ++ BitVec.ofBool f.openCircuit

/-- The flags of the block: those of cell 15, none while it is undefined (10_state.md R36, R51). -/
def State.flags (s : State) : Option StatusFlags := (s.cell 15#4).map statusFlags

/-- The response value of GET_FAULTS and of REFRESH: bit `i` is the flag at SR bit `i`
(42_codec_integer.md R172, 30_encoding.md R88). -/
def statusValue (sr : Byte) : Word := sr.setWidth 32

/-- `CJ`, bit 3 of CR0: true means the cold junction is external (10_state.md R37). -/
def cjExternal (cr0 : Byte) : Bool := cr0.getLsbD 3

end Sys2Proof.Machine
end

