-- ==== Sys2Proof/Machine/CodecInteger.lean ====
section
/-! DEFINITION. The integer forms of the Field Codec (42_codec_integer.md): pure state, before INIT as after it
(R159, R179). -/

namespace Sys2Proof.Machine

/-- What every raw getter does (42_codec_integer.md R159). -/
def getRaw (q : Quantity) (s : State) : State :=
  withRead (readRaw s q) s fun r => respond .ok (signedValue r) s

/-- A getter whose value is a function of one cell (42_codec_integer.md R159). -/
def getFromCell (a : CellAddr) (value : Byte → Word) (s : State) : State :=
  withRead (readCell s a) s fun c => respond .ok (value c) s

/-- What every raw setter does (42_codec_integer.md R169, R179). -/
def setRaw (q : Quantity) (v : Int) (s : State) : State := respond .ok 0#32 (writeRaw s q v)

/-- A setter that reads, modifies and writes one cell (20_memory.md R74, 42_codec_integer.md R157). -/
def modifyCell (a : CellAddr) (change : Byte → Byte) (s : State) : State :=
  withRead (readCell s a) s fun c => respond .ok 0#32 (s.setCell a (change c))

/-- GET_LTC (42_codec_integer.md R160). -/
def execGetLtc (s : State) : Host.Outcome State Fault Refusal := .next (getRaw .ltc s)

/-- GET_CJT (42_codec_integer.md R161). -/
def execGetCjt (s : State) : Host.Outcome State Fault Refusal := .next (getRaw .cjt s)

/-- GET_LTHFT (42_codec_integer.md R162). -/
def execGetLthft (s : State) : Host.Outcome State Fault Refusal := .next (getRaw .lthft s)

/-- GET_LTLFT (42_codec_integer.md R163). -/
def execGetLtlft (s : State) : Host.Outcome State Fault Refusal := .next (getRaw .ltlft s)

/-- GET_CJHF (42_codec_integer.md R164). -/
def execGetCjhf (s : State) : Host.Outcome State Fault Refusal := .next (getRaw .cjhf s)

/-- GET_CJLF (42_codec_integer.md R165). -/
def execGetCjlf (s : State) : Host.Outcome State Fault Refusal := .next (getRaw .cjlf s)

/-- GET_CJTO (42_codec_integer.md R166). -/
def execGetCjto (s : State) : Host.Outcome State Fault Refusal := .next (getRaw .cjto s)

/-- GET_AVG (42_codec_integer.md R170). -/
def execGetAvg (s : State) : Host.Outcome State Fault Refusal :=
  .next (getFromCell 1#4 (fun c => unsignedValue (getHi c).toNat) s)

/-- GET_TCTYPE (42_codec_integer.md R171). -/
def execGetTctype (s : State) : Host.Outcome State Fault Refusal :=
  .next (getFromCell 1#4 (fun c => unsignedValue (getLo c).toNat) s)

/-- GET_FAULTS (42_codec_integer.md R172). -/
def execGetFaults (s : State) : Host.Outcome State Fault Refusal := .next (getFromCell 15#4 statusValue s)

/-- SET_CJT (42_codec_integer.md R180). -/
def execSetCjt (v : Word) (s : State) : Host.Outcome State Fault Refusal := .next (setRaw .cjt (intOperand v) s)

/-- SET_LTHFT (42_codec_integer.md R181). -/
def execSetLthft (v : Word) (s : State) : Host.Outcome State Fault Refusal := .next (setRaw .lthft (intOperand v) s)

/-- SET_LTLFT (42_codec_integer.md R182). -/
def execSetLtlft (v : Word) (s : State) : Host.Outcome State Fault Refusal := .next (setRaw .ltlft (intOperand v) s)

/-- SET_CJHF (42_codec_integer.md R183). -/
def execSetCjhf (v : Word) (s : State) : Host.Outcome State Fault Refusal := .next (setRaw .cjhf (intOperand v) s)

/-- SET_CJLF (42_codec_integer.md R184). -/
def execSetCjlf (v : Word) (s : State) : Host.Outcome State Fault Refusal := .next (setRaw .cjlf (intOperand v) s)

/-- SET_CJTO (42_codec_integer.md R185). -/
def execSetCjto (v : Word) (s : State) : Host.Outcome State Fault Refusal := .next (setRaw .cjto (intOperand v) s)

/-- SET_AVG (42_codec_integer.md R186). -/
def execSetAvg (v : Word) (s : State) : Host.Outcome State Fault Refusal :=
  .next (modifyCell 1#4 (fun c => putHi c (intOperand v)) s)

/-- SET_TCTYPE (42_codec_integer.md R187). -/
def execSetTctype (v : Word) (s : State) : Host.Outcome State Fault Refusal :=
  .next (modifyCell 1#4 (fun c => putLo c (intOperand v)) s)

end Sys2Proof.Machine
end

