-- ==== Sys2Proof/Machine/CodecFloat.lean ====
section
/-! DEFINITION. The floating-point forms of the Field Codec (43_codec_float.md). -/

namespace Sys2Proof.Machine

/-- What every float getter does (43_codec_float.md R209). -/
def getFloat (q : Quantity) (convert : Quantity → Int → F32) (s : State) : State :=
  withRead (readRaw s q) s fun r => respond .ok (convert q r).bits s

/-- What every float setter does: the integer setter of the integer the conversion gives, or `E_FPDOMAIN` with no
cell changed (43_codec_float.md R229, 60_exceptions.md R307). -/
def setFloat (q : Quantity) (convert : Quantity → F32 → Option Int) (f : Word) (s : State) : State :=
  match convert q (F32.ofBits f) with
  | none => raise .eFpdomain s
  | some n => setRaw q n s

/-- GETC_LTC (43_codec_float.md R210). -/
def execGetcLtc (s : State) : Host.Outcome State Fault Refusal := .next (getFloat .ltc toC s)

/-- GETC_CJT (43_codec_float.md R211). -/
def execGetcCjt (s : State) : Host.Outcome State Fault Refusal := .next (getFloat .cjt toC s)

/-- GETC_LTHFT (43_codec_float.md R212). -/
def execGetcLthft (s : State) : Host.Outcome State Fault Refusal := .next (getFloat .lthft toC s)

/-- GETC_LTLFT (43_codec_float.md R213). -/
def execGetcLtlft (s : State) : Host.Outcome State Fault Refusal := .next (getFloat .ltlft toC s)

/-- GETC_CJHF (43_codec_float.md R214). -/
def execGetcCjhf (s : State) : Host.Outcome State Fault Refusal := .next (getFloat .cjhf toC s)

/-- GETC_CJLF (43_codec_float.md R215). -/
def execGetcCjlf (s : State) : Host.Outcome State Fault Refusal := .next (getFloat .cjlf toC s)

/-- GETC_CJTO (43_codec_float.md R216). -/
def execGetcCjto (s : State) : Host.Outcome State Fault Refusal := .next (getFloat .cjto toC s)

/-- SETC_CJT (43_codec_float.md R231). -/
def execSetcCjt (f : Word) (s : State) : Host.Outcome State Fault Refusal :=
  .next (setFloat .cjt fromC f s)

/-- SETC_LTHFT (43_codec_float.md R232). -/
def execSetcLthft (f : Word) (s : State) : Host.Outcome State Fault Refusal :=
  .next (setFloat .lthft fromC f s)

/-- SETC_LTLFT (43_codec_float.md R233). -/
def execSetcLtlft (f : Word) (s : State) : Host.Outcome State Fault Refusal :=
  .next (setFloat .ltlft fromC f s)

/-- SETC_CJHF (43_codec_float.md R234). -/
def execSetcCjhf (f : Word) (s : State) : Host.Outcome State Fault Refusal :=
  .next (setFloat .cjhf fromC f s)

/-- SETC_CJLF (43_codec_float.md R235). -/
def execSetcCjlf (f : Word) (s : State) : Host.Outcome State Fault Refusal :=
  .next (setFloat .cjlf fromC f s)

/-- SETC_CJTO (43_codec_float.md R236). -/
def execSetcCjto (f : Word) (s : State) : Host.Outcome State Fault Refusal :=
  .next (setFloat .cjto fromC f s)

/-- GETF_LTC (43_codec_float.md R220). -/
def execGetfLtc (s : State) : Host.Outcome State Fault Refusal := .next (getFloat .ltc toF s)

/-- GETF_CJT (43_codec_float.md R221). -/
def execGetfCjt (s : State) : Host.Outcome State Fault Refusal := .next (getFloat .cjt toF s)

/-- GETF_LTHFT (43_codec_float.md R222). -/
def execGetfLthft (s : State) : Host.Outcome State Fault Refusal := .next (getFloat .lthft toF s)

/-- GETF_LTLFT (43_codec_float.md R223). -/
def execGetfLtlft (s : State) : Host.Outcome State Fault Refusal := .next (getFloat .ltlft toF s)

/-- GETF_CJHF (43_codec_float.md R224). -/
def execGetfCjhf (s : State) : Host.Outcome State Fault Refusal := .next (getFloat .cjhf toF s)

/-- GETF_CJLF (43_codec_float.md R225). -/
def execGetfCjlf (s : State) : Host.Outcome State Fault Refusal := .next (getFloat .cjlf toF s)

/-- GETF_CJTO (43_codec_float.md R226). -/
def execGetfCjto (s : State) : Host.Outcome State Fault Refusal := .next (getFloat .cjto toF s)

/-- SETF_CJT (43_codec_float.md R241). -/
def execSetfCjt (f : Word) (s : State) : Host.Outcome State Fault Refusal :=
  .next (setFloat .cjt fromF f s)

/-- SETF_LTHFT (43_codec_float.md R242). -/
def execSetfLthft (f : Word) (s : State) : Host.Outcome State Fault Refusal :=
  .next (setFloat .lthft fromF f s)

/-- SETF_LTLFT (43_codec_float.md R243). -/
def execSetfLtlft (f : Word) (s : State) : Host.Outcome State Fault Refusal :=
  .next (setFloat .ltlft fromF f s)

/-- SETF_CJHF (43_codec_float.md R244). -/
def execSetfCjhf (f : Word) (s : State) : Host.Outcome State Fault Refusal :=
  .next (setFloat .cjhf fromF f s)

/-- SETF_CJLF (43_codec_float.md R245). -/
def execSetfCjlf (f : Word) (s : State) : Host.Outcome State Fault Refusal :=
  .next (setFloat .cjlf fromF f s)

/-- SETF_CJTO (43_codec_float.md R246). -/
def execSetfCjto (f : Word) (s : State) : Host.Outcome State Fault Refusal :=
  .next (setFloat .cjto fromF f s)

end Sys2Proof.Machine
end

