-- ==== Sys2Proof/Machine/RegisterImage.lean ====
section
/-! DEFINITION. The Register Image commands (40_register_image.md). None of them calls the bus (R113). -/

namespace Sys2Proof.Machine

/-- The lowest read-only cell: WRREG refuses 12..15 (40_register_image.md R111, 10_state.md R33). -/
def firstReadOnlyCell : Nat := 12

/-- RDREG (40_register_image.md R110). -/
def execRdreg (a : CellAddr) (s : State) : Host.Outcome State Fault Refusal :=
  .next (withRead (readCell s a) s fun b => respond .ok (unsignedValue b.toNat) s)

/-- WRREG (40_register_image.md R111, 60_exceptions.md R304). -/
def execWrreg (a : CellAddr) (b : Byte) (s : State) : Host.Outcome State Fault Refusal :=
  .next (if firstReadOnlyCell ≤ a.toNat then raise .eReadonly s else respond .ok 0#32 (s.setCell a b))

/-- RSTDEF (40_register_image.md R112). -/
def execRstdef (s : State) : Host.Outcome State Fault Refusal :=
  .next (respond .ok 0#32 (writeFrom s 0#4 s.params.factoryDefaults.toList))

end Sys2Proof.Machine
end

