-- ==== Sys2Proof/Machine/Bus.lean ====
section
/-! DEFINITION. The bus primitives (00_scope.md R14, 10_state.md R45) and the transaction procedure every
transaction runs (41_transactions.md R121, R122). Each call enters its phase (10_state.md R47; log 9) and appends
its event to the trace (R44). -/

namespace Sys2Proof.Machine

/-- `READ_COUNT` = 16 data bytes (00_scope.md R8, 30_encoding.md R91). -/
def readCount : Nat := 16

/-- `WRITE_COUNT_INT` = 10 data bytes (00_scope.md R8). -/
def writeCountInt : Nat := 10

/-- `WRITE_COUNT_EXT` = 12 data bytes (00_scope.md R8). -/
def writeCountExt : Nat := 12

/-- The address byte of a frame: `A[7]` write mode, `A[6:4]` zero, `A[3:0]` start address (30_encoding.md R90). -/
def addressByte (mode : TxMode) (start : CellAddr) : Byte :=
  match mode with
  | .read => 0b0#1 ++ 0b000#3 ++ start
  | .write => 0b1#1 ++ 0b000#3 ++ start

/-- What the environment answers to the `k`-th exchange from now on (20_memory.md R62; log 2). -/
def State.busAnswerAt (s : State) (k : Nat) : Config.BusAnswer :=
  match s.busAnswers[k]? with
  | some x => x
  | none => Config.freeBusAnswer (s.exchanges + k)

/-- The sequencer enters a phase (10_state.md R47). -/
def enterPhase (p : Phase) (s : State) : State := { s with phase := p }

/-- The sequencer holds a transaction's mode and count while it runs (10_state.md R47). -/
def beginTransaction (mode : TxMode) (count : Nat) (s : State) : State := { s with txn := some ⟨mode, count⟩ }

/-- The sequencer is back in `IDLE` and holds no transaction (10_state.md R47, R48). -/
def endTransaction (s : State) : State := { s with phase := .idle, txn := none }

/-- `BusAcquire()`, granted (10_state.md R43, R45; log 10). -/
def busAcquire (s : State) : State :=
  { s with phase := .acq, busHeld := true, trace := s.trace ++ [.acquire] }

/-- `BusSelect()` (10_state.md R45). -/
def busSelect (s : State) : State :=
  { s with phase := .sel, csAsserted := true, trace := s.trace ++ [.select] }

/-- The event of an exchange that sent `out` and was answered so (10_state.md R44). -/
def exchangeEvent (out : Byte) (ans : Config.BusAnswer) : BusEvent :=
  match ans with
  | .byte inp => .xchg out inp
  | .fail => .xchgFail out

/-- `BusXchg(out)`: the environment's answer, the event appended, the answer used up (10_state.md R45). -/
def busXchg (out : Byte) (s : State) : Config.BusAnswer × State :=
  (s.busAnswerAt 0,
    { s with
      trace := s.trace ++ [exchangeEvent out (s.busAnswerAt 0)]
      busAnswers := s.busAnswers.tail
      exchanges := s.exchanges + 1 })

/-- `BusDeselect()` (10_state.md R45). -/
def busDeselect (s : State) : State :=
  { s with phase := .desel, csAsserted := false, trace := s.trace ++ [.deselect] }

/-- `BusRelease()` (10_state.md R45). -/
def busRelease (s : State) : State :=
  { s with phase := .rel, busHeld := false, trace := s.trace ++ [.release] }

/-- `Cleanup`, and the phase back to `IDLE` (41_transactions.md R121, 10_state.md R48). -/
def cleanup (s : State) : State := endTransaction (busRelease (busDeselect s))

/-- The data exchanges from byte `i` on; with `store` each received byte goes to its cell before the next
exchange, and a failed exchange ends them (41_transactions.md R121, R122, R123). -/
def dataExchanges (store : Bool) (i : Nat) (outs : List Byte) (s : State) : RespCode × State :=
  match outs with
  | [] => (.ok, s)
  | out :: rest =>
    let r := busXchg out (enterPhase (.data i) s)
    match r.1 with
    | .fail => (.eBus, r.2)
    | .byte b => dataExchanges store (i + 1) rest (if store then r.2.setCell (BitVec.ofNat 4 i) b else r.2)

/-- The exchanges of a frame, address byte first; the byte received with it is discarded
(41_transactions.md R121, R136). -/
def frameExchanges (addr : Byte) (outs : List Byte) (store : Bool) (s : State) : RespCode × State :=
  let r := busXchg addr (enterPhase .addr s)
  match r.1 with
  | .fail => (.eBus, r.2)
  | .byte _ => dataExchanges store 0 outs r.2

/-- `Transaction(A, out, store)`, with `A` the address byte of the mode and start address 0
(41_transactions.md R121, 30_encoding.md R90). -/
def transaction (mode : TxMode) (outs : List Byte) (store : Bool) (s : State) : RespCode × State :=
  let r := frameExchanges (addressByte mode 0#4) outs store
    (busSelect (busAcquire (beginTransaction mode outs.length s)))
  (r.1, cleanup r.2)

/-- The read transaction of INIT and REFRESH: sixteen fill bytes out, sixteen cells in
(41_transactions.md R120, R126). -/
def readTransaction (s : State) : RespCode × State :=
  transaction .read (List.replicate readCount s.params.readFill) true s

end Sys2Proof.Machine
end

