-- ==== Sys2Proof/Machine/Transactions.lean ====
section
/-! DEFINITION. The Transaction Engine's commands (41_transactions.md): the only ones that call the bus (R137). -/

namespace Sys2Proof.Machine

/-- INIT configures the select line at its inactive level (41_transactions.md R120). -/
def configureLine (s : State) : State :=
  { s with csConfigured := true, csAsserted := false, initialized := true }

/-- INIT (41_transactions.md R120): the response value is 0, also after a failed exchange. -/
def execInit (s : State) : Host.Outcome State Fault Refusal :=
  let r := readTransaction (configureLine s)
  .next (respond r.1 0#32 r.2)

/-- REFRESH once INIT was done: the response is the status byte, or `E_BUS` with value 0
(41_transactions.md R126, R127). -/
def refreshResponse (r : RespCode × State) : State :=
  match r.1 with
  | .ok => withRead (readCell r.2 15#4) r.2 fun b => respond .ok (statusValue b) r.2
  | c => raise c r.2

/-- REFRESH (41_transactions.md R126, 60_exceptions.md R302). -/
def execRefresh (s : State) : Host.Outcome State Fault Refusal :=
  .next (if s.initialized then refreshResponse (readTransaction s) else raise .eNotinit s)

/-- COMMIT's byte count from CR0, read afresh each time (41_transactions.md R131). -/
def commitCount (cr0 : Byte) : Nat := if cjExternal cr0 then writeCountExt else writeCountInt

/-- COMMIT once INIT was done: cell 0, then the cells to send, lowest first, then the write frame
(41_transactions.md R130, R131, R132). -/
def commitFrame (s : State) : State :=
  withRead (readCell s 0#4) s fun cr0 =>
    withRead (readFrom s 0#4 (commitCount cr0)) s fun outs =>
      let r := transaction .write outs false s
      respond r.1 0#32 r.2

/-- COMMIT (41_transactions.md R130, 60_exceptions.md R302). -/
def execCommit (s : State) : Host.Outcome State Fault Refusal :=
  .next (if s.initialized then commitFrame s else raise .eNotinit s)

end Sys2Proof.Machine
end

