-- ==== Sys2Proof/Machine/Dispatch.lean ====
section
/-! DEFINITION. One arm per command (30_encoding.md R86, R87). -/

namespace Sys2Proof.Machine

def exec (i : Instr) (s : State) : Host.Outcome State Fault Refusal :=
  match i with
  | .init => Sys2Proof.Machine.execInit s
  | .refresh => Sys2Proof.Machine.execRefresh s
  | .commit => Sys2Proof.Machine.execCommit s
  | .rstdef => Sys2Proof.Machine.execRstdef s
  | .rdreg a => Sys2Proof.Machine.execRdreg a s
  | .wrreg a b => Sys2Proof.Machine.execWrreg a b s
  | .getLtc => Sys2Proof.Machine.execGetLtc s
  | .getCjt => Sys2Proof.Machine.execGetCjt s
  | .getLthft => Sys2Proof.Machine.execGetLthft s
  | .getLtlft => Sys2Proof.Machine.execGetLtlft s
  | .getCjhf => Sys2Proof.Machine.execGetCjhf s
  | .getCjlf => Sys2Proof.Machine.execGetCjlf s
  | .getCjto => Sys2Proof.Machine.execGetCjto s
  | .getAvg => Sys2Proof.Machine.execGetAvg s
  | .getTctype => Sys2Proof.Machine.execGetTctype s
  | .getFaults => Sys2Proof.Machine.execGetFaults s
  | .setCjt v => Sys2Proof.Machine.execSetCjt v s
  | .setLthft v => Sys2Proof.Machine.execSetLthft v s
  | .setLtlft v => Sys2Proof.Machine.execSetLtlft v s
  | .setCjhf v => Sys2Proof.Machine.execSetCjhf v s
  | .setCjlf v => Sys2Proof.Machine.execSetCjlf v s
  | .setCjto v => Sys2Proof.Machine.execSetCjto v s
  | .setAvg v => Sys2Proof.Machine.execSetAvg v s
  | .setTctype v => Sys2Proof.Machine.execSetTctype v s
  | .getcLtc => Sys2Proof.Machine.execGetcLtc s
  | .getcCjt => Sys2Proof.Machine.execGetcCjt s
  | .getcLthft => Sys2Proof.Machine.execGetcLthft s
  | .getcLtlft => Sys2Proof.Machine.execGetcLtlft s
  | .getcCjhf => Sys2Proof.Machine.execGetcCjhf s
  | .getcCjlf => Sys2Proof.Machine.execGetcCjlf s
  | .getcCjto => Sys2Proof.Machine.execGetcCjto s
  | .setcCjt f => Sys2Proof.Machine.execSetcCjt f s
  | .setcLthft f => Sys2Proof.Machine.execSetcLthft f s
  | .setcLtlft f => Sys2Proof.Machine.execSetcLtlft f s
  | .setcCjhf f => Sys2Proof.Machine.execSetcCjhf f s
  | .setcCjlf f => Sys2Proof.Machine.execSetcCjlf f s
  | .setcCjto f => Sys2Proof.Machine.execSetcCjto f s
  | .getfLtc => Sys2Proof.Machine.execGetfLtc s
  | .getfCjt => Sys2Proof.Machine.execGetfCjt s
  | .getfLthft => Sys2Proof.Machine.execGetfLthft s
  | .getfLtlft => Sys2Proof.Machine.execGetfLtlft s
  | .getfCjhf => Sys2Proof.Machine.execGetfCjhf s
  | .getfCjlf => Sys2Proof.Machine.execGetfCjlf s
  | .getfCjto => Sys2Proof.Machine.execGetfCjto s
  | .setfCjt f => Sys2Proof.Machine.execSetfCjt f s
  | .setfLthft f => Sys2Proof.Machine.execSetfLthft f s
  | .setfLtlft f => Sys2Proof.Machine.execSetfLtlft f s
  | .setfCjhf f => Sys2Proof.Machine.execSetfCjhf f s
  | .setfCjlf f => Sys2Proof.Machine.execSetfCjlf f s
  | .setfCjto f => Sys2Proof.Machine.execSetfCjto f s

end Sys2Proof.Machine
end

