-- ==== Sys2Proof/Machine/Step.lean ====
section
/-! DEFINITION. One step: one command, from its word to its response (20_memory.md R66, R70). -/

namespace Sys2Proof.Machine

/-- One step. A state whose fault record is not empty runs no later command (60_exceptions.md R306). With no word
from the host the block waits (70_reset_and_hazards.md R330). Otherwise the next word is decoded and its command
runs; a word that is no command answers `E_ILLEGAL` (30_encoding.md R86, 60_exceptions.md R301). -/
def step (s : State) : Host.Outcome State Fault Refusal :=
  match s.faultRecord with
  | some f => .fault f
  | none =>
    match takeCommand s with
    | none => .next s
    | some (w, s') =>
      match decode w with
      | .ok i => exec i s'
      | .error _ => .next (raise .eIllegal s')

/-- The state with this word on the host's port, so that the very next step runs it (log 1). In a state whose fault
record is not empty the word is not run and the record stays (60_exceptions.md R306). -/
def State.withFetchWord (s : State) (nbits w : Nat) : State :=
  issueNext s (BitVec.ofNat 48 (w % 2 ^ nbits))

end Sys2Proof.Machine
end

