-- ==== Sys2Proof/WellFormed.lean ====
section
/-! DEFINITION. Well-formedness. A term of `Instr` is well-formed by its types: every value of every operand
is legal at decode (30_encoding.md R82 to R85). What can be ill-formed is a command word, against its
opcode's format (R81), and the parameter table, against the two values it must hold (10_state.md R53). -/

namespace Sys2Proof

/-- The fields a format does not use are 0 (30_encoding.md R81), said field by field, apart from the decoder's
masks. -/
def CmdWord.wellFormedAs (fmt : Format) (w : CmdWord) : Bool :=
  let addrZero := w.extractLsb' 8 4 == 0#4
  let rsvZero := w.extractLsb' 12 4 == 0#4
  let dataZero := w.extractLsb' 16 32 == 0#32
  let dataHighZero := w.extractLsb' 24 24 == 0#24
  match fmt with
  | .n => addrZero && rsvZero && dataZero
  | .a => rsvZero && dataZero
  | .ab => rsvZero && dataHighZero
  | .i => addrZero && rsvZero
  | .f => addrZero && rsvZero

/-- The two values every `FACTORY_DEFAULTS` table must hold (10_state.md R53). -/
def Config.Params.wellFormed (p : Config.Params) : Bool :=
  p.factoryDefaults[3] == 0x7F#8 && p.factoryDefaults[4] == 0xC0#8

end Sys2Proof
end

