-- ==== Sys2Proof/Safety.lean ====
section
/-! DEFINITION. The terms claims are stated in: what holds between commands, what a legal response and a
well-bracketed frame are, which command reads and writes which cell, and what rounding to nearest means. -/

namespace Sys2Proof.Machine

/-- What holds between commands (10_state.md R48): not selected, bus not held, phase `IDLE`, no transaction. -/
abbrev Quiescent (s : State) : Prop :=
  s.busHeld = false ∧ s.csAsserted = false ∧ s.phase = .idle ∧ s.txn = none

/-- A response the block may give (60_exceptions.md R300): codes 6 and 7 never, an error's value 0. -/
def Response.legal (r : Response) : Bool := decide (r.code.toNat ≤ 5) && (r.code == 0#3 || r.value == 0#32)

/-- An exchange, failed or not. -/
def BusEvent.isExchange (e : BusEvent) : Bool :=
  match e with
  | .xchg _ _ => true
  | .xchgFail _ => true
  | .acquire => false
  | .select => false
  | .deselect => false
  | .release => false

/-- An exchange that did not fail. -/
def BusEvent.isGoodExchange (e : BusEvent) : Bool :=
  match e with
  | .xchg _ _ => true
  | .xchgFail _ => false
  | .acquire => false
  | .select => false
  | .deselect => false
  | .release => false

/-- The byte an exchange sent or offered. -/
def BusEvent.sent (e : BusEvent) : Option Byte :=
  match e with
  | .xchg out _ => some out
  | .xchgFail out => some out
  | .acquire => none
  | .select => none
  | .deselect => none
  | .release => none

/-- One transaction's events (20_memory.md R71, 30_encoding.md R90, 41_transactions.md R121, R122,
70_reset_and_hazards.md R352): acquire, select, an address byte 0x00 or 0x80 first, at most 17 exchanges of which
only the last may fail, deselect, release. -/
def WellBracketed (evs : List BusEvent) : Prop :=
  ∃ first rest, evs = [.acquire, .select] ++ (first :: rest) ++ [.deselect, .release] ∧
    (first.sent = some 0x00#8 ∨ first.sent = some 0x80#8) ∧
    (first :: rest).length ≤ 17 ∧
    (∀ e ∈ first :: rest, e.isExchange = true) ∧
    (∀ e ∈ (first :: rest).dropLast, e.isGoodExchange = true)

/-- The invariant of every step: quiet between commands (10_state.md R48), the memory in canonical form (R30),
every response legal (60_exceptions.md R300), and initialized exactly when the select line is configured
(10_state.md R41, R42). -/
abbrev Inv (s : State) : Prop :=
  Quiescent s ∧ s.image.wf = true ∧ s.responses.all Response.legal = true ∧ s.initialized = s.csConfigured

/-- The commands that call the bus (41_transactions.md R137). -/
def callsBus (i : Instr) : Bool :=
  match i with
  | .init => true
  | .refresh => true
  | .commit => true
  | .rstdef | .rdreg _ | .wrreg _ _ | .getLtc | .getCjt | .getLthft | .getLtlft | .getCjhf
    | .getCjlf | .getCjto | .getAvg | .getTctype | .getFaults | .setCjt _ | .setLthft _
    | .setLtlft _ | .setCjhf _ | .setCjlf _ | .setCjto _ | .setAvg _ | .setTctype _ | .getcLtc
    | .getcCjt | .getcLthft | .getcLtlft | .getcCjhf | .getcCjlf | .getcCjto | .setcCjt _
    | .setcLthft _ | .setcLtlft _ | .setcCjhf _ | .setcCjlf _ | .setcCjto _ | .getfLtc | .getfCjt
    | .getfLthft | .getfLtlft | .getfCjhf | .getfCjlf | .getfCjto | .setfCjt _ | .setfLthft _
    | .setfLtlft _ | .setfCjhf _ | .setfCjlf _ | .setfCjto _ => false

/-- The cells a command reads whatever the image holds, lowest first (10_state.md R34). COMMIT's depend on
cell 0, and are not in this table. -/
def fixedCellsRead (i : Instr) : List CellAddr :=
  match i with
  | .rdreg a => [a]
  | .getLtc | .getcLtc | .getfLtc => [12, 13, 14]
  | .getCjt | .getcCjt | .getfCjt => [10, 11]
  | .getLthft | .getcLthft | .getfLthft => [5, 6]
  | .getLtlft | .getcLtlft | .getfLtlft => [7, 8]
  | .getCjhf | .getcCjhf | .getfCjhf => [3]
  | .getCjlf | .getcCjlf | .getfCjlf => [4]
  | .getCjto | .getcCjto | .getfCjto => [9]
  | .getAvg | .getTctype => [1]
  | .setAvg _ | .setTctype _ => [1]
  | .getFaults => [15]
  | .init | .refresh | .commit | .rstdef | .wrreg _ _ | .setCjt _ | .setLthft _ | .setLtlft _
    | .setCjhf _ | .setCjlf _ | .setCjto _ | .setcCjt _ | .setcLthft _ | .setcLtlft _ | .setcCjhf _
    | .setcCjlf _ | .setcCjto _ | .setfCjt _ | .setfLthft _ | .setfLtlft _ | .setfCjhf _
    | .setfCjlf _ | .setfCjto _ => []

/-- The cells a command may write (10_state.md R34). -/
def cellsWritten (i : Instr) : List CellAddr :=
  match i with
  | .init | .refresh | .rstdef => [0, 1, 2, 3, 4, 5, 6, 7, 8, 9, 10, 11, 12, 13, 14, 15]
  | .wrreg a _ => if a.toNat < 12 then [a] else []
  | .setCjt _ | .setcCjt _ | .setfCjt _ => [10, 11]
  | .setLthft _ | .setcLthft _ | .setfLthft _ => [5, 6]
  | .setLtlft _ | .setcLtlft _ | .setfLtlft _ => [7, 8]
  | .setCjhf _ | .setcCjhf _ | .setfCjhf _ => [3]
  | .setCjlf _ | .setcCjlf _ | .setfCjlf _ => [4]
  | .setCjto _ | .setcCjto _ | .setfCjto _ => [9]
  | .setAvg _ | .setTctype _ => [1]
  | .commit | .rdreg _ | .getLtc | .getCjt | .getLthft | .getLtlft | .getCjhf | .getCjlf | .getCjto
    | .getAvg | .getTctype | .getFaults | .getcLtc | .getcCjt | .getcLthft | .getcLtlft | .getcCjhf
    | .getcCjlf | .getcCjto | .getfLtc | .getfCjt | .getfLthft | .getfLtlft | .getfCjhf | .getfCjlf
    | .getfCjto => []

/-- An opcode in none of the ranges of the map (30_encoding.md R89). -/
def illegalOpcode (op : Byte) : Prop :=
  op = 0x00#8 ∨ (0x05 ≤ op.toNat ∧ op.toNat ≤ 0x0F) ∨ (0x12 ≤ op.toNat ∧ op.toNat ≤ 0x1F) ∨
    (0x2A ≤ op.toNat ∧ op.toNat ≤ 0x30) ∨ (0x39 ≤ op.toNat ∧ op.toNat ≤ 0x3F) ∨
    (0x47 ≤ op.toNat ∧ op.toNat ≤ 0x50) ∨ (0x57 ≤ op.toNat ∧ op.toNat ≤ 0x5F) ∨
    (0x67 ≤ op.toNat ∧ op.toNat ≤ 0x70) ∨ (0x77 ≤ op.toNat ∧ op.toNat ≤ 0xFF)

/-- A word that encodes no command: an opcode outside the map, or a must-be-zero field that is not zero
(30_encoding.md R81, R89). -/
def illegalWord (w : CmdWord) : Prop :=
  illegalOpcode (w.extractLsb' 0 8) ∨
    ∃ i : Instr, i.opcode = w.extractLsb' 0 8 ∧ CmdWord.wellFormedAs i.format w = false

/-- The Celsius getter of each quantity. -/
def celsiusGetters : List (Quantity × Instr) :=
  [(.ltc, .getcLtc), (.cjt, .getcCjt), (.lthft, .getcLthft), (.ltlft, .getcLtlft), (.cjhf, .getcCjhf),
    (.cjlf, .getcCjlf), (.cjto, .getcCjto)]

/-- The Fahrenheit getter of each quantity. -/
def fahrenheitGetters : List (Quantity × Instr) :=
  [(.ltc, .getfLtc), (.cjt, .getfCjt), (.lthft, .getfLthft), (.ltlft, .getfLtlft), (.cjhf, .getfCjhf),
    (.cjlf, .getfCjlf), (.cjto, .getfCjto)]

/-- The writable quantities with their Celsius setter and the integer setter it follows. -/
def celsiusSetters : List (Quantity × (Word → Instr) × (Word → Instr)) :=
  [(.cjt, .setcCjt, .setCjt), (.lthft, .setcLthft, .setLthft), (.ltlft, .setcLtlft, .setLtlft),
    (.cjhf, .setcCjhf, .setCjhf), (.cjlf, .setcCjlf, .setCjlf), (.cjto, .setcCjto, .setCjto)]

/-- The writable quantities with their Fahrenheit setter and the integer setter it follows. -/
def fahrenheitSetters : List (Quantity × (Word → Instr) × (Word → Instr)) :=
  [(.cjt, .setfCjt, .setCjt), (.lthft, .setfLthft, .setLthft), (.ltlft, .setfLtlft, .setLtlft),
    (.cjhf, .setfCjhf, .setCjhf), (.cjlf, .setfCjlf, .setCjlf), (.cjto, .setfCjto, .setCjto)]

/-- The writable quantities with their getter and setter of one form. -/
def celsiusPairs : List (Quantity × Instr × (Word → Instr)) :=
  [(.cjt, .getcCjt, .setcCjt), (.lthft, .getcLthft, .setcLthft), (.ltlft, .getcLtlft, .setcLtlft),
    (.cjhf, .getcCjhf, .setcCjhf), (.cjlf, .getcCjlf, .setcCjlf), (.cjto, .getcCjto, .setcCjto)]

/-- As `celsiusPairs`, in Fahrenheit. -/
def fahrenheitPairs : List (Quantity × Instr × (Word → Instr)) :=
  [(.cjt, .getfCjt, .setfCjt), (.lthft, .getfLthft, .setfLthft), (.ltlft, .getfLtlft, .setfLtlft),
    (.cjhf, .getfCjhf, .setfCjhf), (.cjlf, .getfCjlf, .setfCjlf), (.cjto, .getfCjto, .setfCjto)]

/-- The real (rational) value of a finite binary32. -/
def F32.value (f : F32) : Option ℚ :=
  match f with
  | .nan => none
  | .inf _ => none
  | .fin neg units => some ((if neg then -1 else 1) * (units : ℚ) / 2 ^ 149)

/-- `f` is `x` rounded to the nearest binary32, ties to the even pattern (00_scope.md R16, 43_codec_float.md R200), or
an infinity from 2^128 - 2^103 on (PRESUMED, IEEE 754: log 12). -/
def RoundsTo (x : ℚ) (f : F32) : Prop :=
  if |x| < 2 ^ 128 - 2 ^ 103 then
    ∃ p v, F32.ofBits p = f ∧ f.value = some v ∧
      ∀ p' v', (F32.ofBits p').value = some v' →
        |x - v| ≤ |x - v'| ∧ (|x - v| = |x - v'| → v' = v ∨ p.getLsbD 0 = false)
  else f = .inf (decide (x < 0))

end Sys2Proof.Machine
end

