-- ==== Sys2Proof/Certificates/Slice0/Obligations.lean ====
section
/-! DEFINITION. The statements for the provers. A next state is written out as a record update, so each statement
says what the command leaves unchanged as well; where the image changes, it is said cell by cell through
`Memory.read`, for every address. -/

open Sys2Proof Sys2Proof.Machine

/-! Words and steps -/

/-- Decode and encode agree, for every command and every operand (30_encoding.md R80, R81, R86, R87). -/
def Obligations.DecodeOfEncode : Prop := ∀ i : Instr, decode (encode i) = .ok i

/-- Each command has one word: a word that decodes is the encoding of what it decodes to (30_encoding.md R86). -/
def Obligations.EncodeOfDecode : Prop := ∀ (w : CmdWord) (i : Instr), decode w = .ok i → encode i = w

/-- The decoder rejects exactly the illegal words (30_encoding.md R81, R86, R89). That the rejection of an opcode
outside the map names the opcode is the model's choice, not the spec's: the spec has one error for every illegal word
(log 15, DESIGN CHOICE). -/
def Obligations.DecoderRejectsExactlyIllegalWords : Prop :=
  ∀ w : CmdWord, (illegalWord w ↔ ∃ e, decode w = .error e) ∧
    (illegalOpcode (w.extractLsb' 0 8) → decode w = .error (.unknownOpcode (w.extractLsb' 0 8)))

/-- An illegal word answers `E_ILLEGAL` and changes nothing (60_exceptions.md R301). -/
def Obligations.IllegalWordAnswersEIllegal : Prop :=
  ∀ (s : State) (w : CmdWord) (rest : List CmdWord), s.faultRecord = none → s.commands = w :: rest →
    illegalWord w →
    step s = .next { s with commands := rest, responses := s.responses ++ [⟨1#3, 0#32⟩] }

/-- Words written out from the spec's encoding decode to the commands they stand for (30_encoding.md R86, R87), and two
illegal ones are rejected (R89). The reasons named in the last two clauses, a must-be-zero field and an unknown opcode,
are the model's choice: the spec has one error for both (log 15, DESIGN CHOICE). -/
def Obligations.WordsWrittenOutDecode : Prop :=
  decode 0x000000000001#48 = .ok .init ∧ decode 0x000000000310#48 = .ok (.rdreg 3#4) ∧
    decode 0x000000640311#48 = .ok (.wrreg 3#4 0x64#8) ∧ decode 0x000000000029#48 = .ok .getFaults ∧
    decode 0xFFFFFF600033#48 = .ok (.setLtlft 0xFFFFFF60#32) ∧ decode 0x000000000046#48 = .ok .getcCjto ∧
    decode 0x41D200000051#48 = .ok (.setcCjt 0x41D20000#32) ∧ decode 0x000000000066#48 = .ok .getfCjto ∧
    decode 0xBF6666660076#48 = .ok (.setfCjto 0xBF666666#32) ∧
    decode 0x000000010001#48 = .error (.mustBeZero 0x01#8) ∧
    decode 0x000000000030#48 = .error (.unknownOpcode 0x30#8)

/-- A step takes the host's next word and runs the command it decodes to (20_memory.md R70, 30_encoding.md R86). The
list of words the host has yet to issue is the model's (log 1). -/
def Obligations.StepRunsDecodedCommand : Prop :=
  ∀ (s : State) (w : CmdWord) (rest : List CmdWord) (i : Instr), s.faultRecord = none →
    s.commands = w :: rest → decode w = .ok i → step s = exec i { s with commands := rest }

/-- With no word from the host the block waits (70_reset_and_hazards.md R330); with the fault record not empty no
later command runs, one issued after the fault included, and nothing clears the record (60_exceptions.md R306). The host's port as a list of words is the model's (log 1), the fault
answered by the later steps too (log 5). -/
def Obligations.StepWithoutCommand : Prop :=
  (∀ s : State, s.faultRecord = none → s.commands = [] → step s = .next s) ∧
    (∀ (s : State) (f : Fault), s.faultRecord = some f → step s = .fault f) ∧
    ∀ (s : State) (f : Fault) (nbits w : Nat), s.faultRecord = some f →
      (s.withFetchWord nbits w).faultRecord = some f ∧ step (s.withFetchWord nbits w) = .fault f

/-- The state after reset (10_state.md R51, R52, 70_reset_and_hazards.md R330, 00_scope.md R8): every cell undefined,
so every flag too, the control bits false, the phase `IDLE`, the trace and the fault record empty, the parameters at
their defaults (log 6). -/
def Obligations.ResetState : Prop :=
  (∀ a : CellAddr, State.reset.cell a = none) ∧ State.reset.flags = none ∧
    State.reset.initialized = false ∧ State.reset.csConfigured = false ∧ State.reset.csAsserted = false ∧
    State.reset.busHeld = false ∧ State.reset.phase = .idle ∧ State.reset.trace = [] ∧
    State.reset.faultRecord = none ∧
    State.reset.params.factoryDefaults.toList = [0x00#8, 0x03#8, 0xFF#8, 0x7F#8, 0xC0#8, 0x7F#8, 0xFF#8, 0x80#8,
      0x00#8, 0x00#8, 0x00#8, 0x00#8, 0x00#8, 0x00#8, 0x00#8, 0x00#8] ∧
    State.reset.params.readFill = 0x00#8 ∧ State.reset.params.csActiveLevel = .low

/-- Every command gets exactly one outcome in one step: one legal response, or `UninitRead` recorded for a cell
that is undefined, with nothing else changed (60_exceptions.md R300, R305, R306, 70_reset_and_hazards.md R352). That
the recording is a next state is the model's reading (log 5). -/
def Obligations.EveryCommandAnswersOnce : Prop :=
  ∀ (s : State) (w : CmdWord) (rest : List CmdWord), s.faultRecord = none → s.commands = w :: rest →
    ∃ t, step s = .next t ∧ t.commands = rest ∧
      ((∃ r, t.responses = s.responses ++ [r] ∧ r.legal = true ∧ t.faultRecord = none) ∨
        (∃ a, s.cell a = none ∧
          t = { s with commands := rest, faultRecord := some (.uninitRead a) }))

/-- Every error but `E_BUS` is precise: nothing changes but the response (60_exceptions.md R311). -/
def Obligations.ErrorsArePrecise : Prop :=
  ∀ (i : Instr) (s t : State) (r : Response), exec i s = .next t → t.responses = s.responses ++ [r] →
    r.code ≠ 0#3 → r.code ≠ 4#3 → t = { s with responses := s.responses ++ [r] }

/-! Register Image commands -/

/-- RDREG answers the cell, zero-extended, and changes nothing else (40_register_image.md R110). -/
def Obligations.RdregAnswersCell : Prop :=
  ∀ (s : State) (a : CellAddr) (b : Byte), s.cell a = some b →
    exec (.rdreg a) s = .next { s with responses := s.responses ++ [⟨0#3, b.setWidth 32⟩] }

/-- WRREG to a cell 0..11 stores its byte there and nowhere else, whatever CJ is (40_register_image.md R111). -/
def Obligations.WrregStoresByte : Prop :=
  ∀ (s : State) (a : CellAddr) (b : Byte), a.toNat < 12 →
    ∃ m, exec (.wrreg a b) s =
        .next { s with image := m, responses := s.responses ++ [⟨0#3, 0#32⟩] } ∧
      m.read a.toNat = some b ∧ ∀ k, k ≠ a.toNat → m.read k = s.image.read k

/-- WRREG to a cell 12..15 answers `E_READONLY` and changes no cell; cells 10 and 11 are accepted whatever CJ is;
no other command answers `E_READONLY` (60_exceptions.md R304). -/
def Obligations.WrregRefusesReadOnlyCells : Prop :=
  (∀ (s : State) (a : CellAddr) (b : Byte), 12 ≤ a.toNat →
      exec (.wrreg a b) s = .next { s with responses := s.responses ++ [⟨2#3, 0#32⟩] }) ∧
    (∀ (s : State) (a : CellAddr) (b : Byte), a = 10#4 ∨ a = 11#4 →
      ∃ t, exec (.wrreg a b) s = .next t ∧ t.cell a = some b ∧
        t.responses = s.responses ++ [⟨0#3, 0#32⟩]) ∧
    ∀ (i : Instr) (s t : State) (v : Word), (∀ a b, i ≠ .wrreg a b) → exec i s = .next t →
      t.responses ≠ s.responses ++ [⟨2#3, v⟩]

/-- RSTDEF loads the table into all sixteen cells and changes nothing else (40_register_image.md R112). -/
def Obligations.RstdefLoadsTable : Prop :=
  ∀ s : State,
    ∃ m, exec .rstdef s = .next { s with image := m, responses := s.responses ++ [⟨0#3, 0#32⟩] } ∧
      (∀ k (h : k < 16), m.read k = some (s.params.factoryDefaults[k]'h)) ∧
      ∀ k, 16 ≤ k → m.read k = s.image.read k

/-- The Register Image commands make no bus call and change no control state (40_register_image.md R113). -/
def Obligations.RegisterImageCommandsKeepControlState : Prop :=
  ∀ (i : Instr) (s t : State),
    (∃ a, i = .rdreg a) ∨ (∃ a b, i = .wrreg a b) ∨ i = .rstdef → exec i s = .next t →
    t.initialized = s.initialized ∧ t.csConfigured = s.csConfigured ∧ t.csAsserted = s.csAsserted ∧
      t.busHeld = s.busHeld ∧ t.trace = s.trace ∧ t.exchanges = s.exchanges ∧ t.busAnswers = s.busAnswers

/-- Each command writes only the cells the table gives it (10_state.md R33, R34). -/
def Obligations.CommandsWriteOnlyTheirCells : Prop :=
  ∀ (i : Instr) (s t : State) (a : CellAddr), exec i s = .next t → a ∉ cellsWritten i →
    t.cell a = s.cell a

/-- A cell once defined stays defined (10_state.md R31), and no step changes the parameters (00_scope.md R8). -/
def Obligations.DefinedCellsStayDefined : Prop :=
  ∀ s t : State, step s = .next t →
    t.params = s.params ∧ ∀ a : CellAddr, s.cell a ≠ none → t.cell a ≠ none

/-! Integer getters -/

/-- The raw value of each quantity from the bytes of its cells: sign-extended, left-justified fields shifted with
floor (30_encoding.md R95, R96). -/
def Obligations.RawValuesOfCells : Prop :=
  (∀ (s : State) (h m l : Byte), s.cell 12#4 = some h → s.cell 13#4 = some m → s.cell 14#4 = some l →
      readRaw s .ltc = .ok ((h ++ m ++ l).toInt / 32)) ∧
    (∀ (s : State) (h l : Byte), s.cell 10#4 = some h → s.cell 11#4 = some l →
      readRaw s .cjt = .ok ((h ++ l).toInt / 4)) ∧
    (∀ (s : State) (h l : Byte), s.cell 5#4 = some h → s.cell 6#4 = some l →
      readRaw s .lthft = .ok (h ++ l).toInt) ∧
    (∀ (s : State) (h l : Byte), s.cell 7#4 = some h → s.cell 8#4 = some l →
      readRaw s .ltlft = .ok (h ++ l).toInt) ∧
    (∀ (s : State) (b : Byte), s.cell 3#4 = some b → readRaw s .cjhf = .ok b.toInt) ∧
    (∀ (s : State) (b : Byte), s.cell 4#4 = some b → readRaw s .cjlf = .ok b.toInt) ∧
    ∀ (s : State) (b : Byte), s.cell 9#4 = some b → readRaw s .cjto = .ok b.toInt

/-- GET_LTC answers the 19-bit field of cells 12..14 in °C × 128 (42_codec_integer.md R151, R160). -/
def Obligations.GetLtcAnswersField : Prop :=
  ∀ (s : State) (h m l : Byte), s.cell 12#4 = some h → s.cell 13#4 = some m → s.cell 14#4 = some l →
    exec .getLtc s =
      .next { s with responses := s.responses ++ [⟨0#3, BitVec.ofInt 32 ((h ++ m ++ l).toInt / 32)⟩] }

/-- GET_CJT answers the 14-bit field of cells 10 and 11 in °C × 64 (42_codec_integer.md R153, R161). -/
def Obligations.GetCjtAnswersField : Prop :=
  ∀ (s : State) (h l : Byte), s.cell 10#4 = some h → s.cell 11#4 = some l →
    exec .getCjt s =
      .next { s with responses := s.responses ++ [⟨0#3, BitVec.ofInt 32 ((h ++ l).toInt / 4)⟩] }

/-- GET_LTHFT and GET_LTLFT answer the signed 16-bit field of their cells (42_codec_integer.md R155, R162, R163). -/
def Obligations.GetThresholdsAnswerField : Prop :=
  (∀ (s : State) (h l : Byte), s.cell 5#4 = some h → s.cell 6#4 = some l →
      exec .getLthft s =
        .next { s with responses := s.responses ++ [⟨0#3, (h ++ l).signExtend 32⟩] }) ∧
    ∀ (s : State) (h l : Byte), s.cell 7#4 = some h → s.cell 8#4 = some l →
      exec .getLtlft s =
        .next { s with responses := s.responses ++ [⟨0#3, (h ++ l).signExtend 32⟩] }

/-- GET_CJHF, GET_CJLF and GET_CJTO answer the signed byte of their cell (42_codec_integer.md R156, R164, R165,
R166). -/
def Obligations.GetSignedByteAnswersField : Prop :=
  ∀ (s : State) (b : Byte),
    (s.cell 3#4 = some b →
      exec .getCjhf s = .next { s with responses := s.responses ++ [⟨0#3, b.signExtend 32⟩] }) ∧
    (s.cell 4#4 = some b →
      exec .getCjlf s = .next { s with responses := s.responses ++ [⟨0#3, b.signExtend 32⟩] }) ∧
    (s.cell 9#4 = some b →
      exec .getCjto s = .next { s with responses := s.responses ++ [⟨0#3, b.signExtend 32⟩] })

/-- GET_AVG and GET_TCTYPE answer the high and the low nibble of cell 1 (42_codec_integer.md R157, R170, R171). -/
def Obligations.GetNibblesAnswerField : Prop :=
  ∀ (s : State) (c : Byte), s.cell 1#4 = some c →
    exec .getAvg s =
        .next { s with responses := s.responses ++ [⟨0#3, (c.extractLsb' 4 4).setWidth 32⟩] } ∧
      exec .getTctype s =
        .next { s with responses := s.responses ++ [⟨0#3, (c.extractLsb' 0 4).setWidth 32⟩] }

/-- GET_FAULTS answers a value whose bit `i` is the flag at SR bit `i`, the other bits 0, and clears no flag
(42_codec_integer.md R172, 10_state.md R36). -/
def Obligations.GetFaultsAnswersFlags : Prop :=
  ∀ (s : State) (sr : Byte), s.cell 15#4 = some sr →
    ∃ v : Word, exec .getFaults s = .next { s with responses := s.responses ++ [⟨0#3, v⟩] } ∧
      s.flags = some ⟨v.getLsbD 7, v.getLsbD 6, v.getLsbD 5, v.getLsbD 4, v.getLsbD 3, v.getLsbD 2,
        v.getLsbD 1, v.getLsbD 0⟩ ∧
      v.extractLsb' 8 24 = 0#24

/-- RDREG, every getter, and the nibble setters record `UninitRead` at the lowest undefined cell they must read, and
change nothing else (42_codec_integer.md R159, 43_codec_float.md R209, 60_exceptions.md R305; log 5). -/
def Obligations.ReadOfUndefinedCellIsRecorded : Prop :=
  ∀ (i : Instr) (s : State) (before after : List CellAddr) (a : CellAddr),
    fixedCellsRead i = before ++ a :: after → (∀ k ∈ before, s.cell k ≠ none) → s.cell a = none →
    exec i s = .next { s with faultRecord := some (.uninitRead a) }

/-! Integer setters -/

/-- SET_CJT stores `trunc_16(v * 4)` in cells 10 and 11, big-endian, and nothing else (42_codec_integer.md R154,
R180). -/
def Obligations.SetCjtStoresField : Prop :=
  ∀ (s : State) (v : Word),
    ∃ m, exec (.setCjt v) s =
        .next { s with image := m, responses := s.responses ++ [⟨0#3, 0#32⟩] } ∧
      m.read 10 = some ((v <<< 2).extractLsb' 8 8) ∧ m.read 11 = some ((v <<< 2).extractLsb' 0 8) ∧
      ∀ k, k ≠ 10 → k ≠ 11 → m.read k = s.image.read k

/-- SET_LTHFT and SET_LTLFT store `trunc_16(v)` in their two cells, big-endian, and nothing else
(42_codec_integer.md R155, R181, R182). -/
def Obligations.SetThresholdsStoreField : Prop :=
  ∀ (s : State) (v : Word),
    (∃ m, exec (.setLthft v) s =
        .next { s with image := m, responses := s.responses ++ [⟨0#3, 0#32⟩] } ∧
      m.read 5 = some (v.extractLsb' 8 8) ∧ m.read 6 = some (v.extractLsb' 0 8) ∧
      ∀ k, k ≠ 5 → k ≠ 6 → m.read k = s.image.read k) ∧
    ∃ m, exec (.setLtlft v) s =
        .next { s with image := m, responses := s.responses ++ [⟨0#3, 0#32⟩] } ∧
      m.read 7 = some (v.extractLsb' 8 8) ∧ m.read 8 = some (v.extractLsb' 0 8) ∧
      ∀ k, k ≠ 7 → k ≠ 8 → m.read k = s.image.read k

/-- SET_CJHF, SET_CJLF and SET_CJTO store `trunc_8(v)` in their cell and nothing else (42_codec_integer.md R156,
R183, R184, R185). -/
def Obligations.SetSignedByteStoresField : Prop :=
  ∀ (s : State) (v : Word),
    ∀ p ∈ [(Instr.setCjhf v, 3), (Instr.setCjlf v, 4), (Instr.setCjto v, 9)],
      ∃ m, exec p.1 s =
          .next { s with image := m, responses := s.responses ++ [⟨0#3, 0#32⟩] } ∧
        m.read p.2 = some (v.extractLsb' 0 8) ∧ ∀ k, k ≠ p.2 → m.read k = s.image.read k

/-- SET_AVG and SET_TCTYPE store `trunc_4(v)` in their nibble of cell 1 and keep the other nibble
(42_codec_integer.md R157, R186, R187). -/
def Obligations.SetNibblesKeepTheOther : Prop :=
  ∀ (s : State) (c : Byte) (v : Word), s.cell 1#4 = some c →
    (∃ m, exec (.setAvg v) s =
        .next { s with image := m, responses := s.responses ++ [⟨0#3, 0#32⟩] } ∧
      m.read 1 = some (v.extractLsb' 0 4 ++ c.extractLsb' 0 4) ∧
      ∀ k, k ≠ 1 → m.read k = s.image.read k) ∧
    ∃ m, exec (.setTctype v) s =
        .next { s with image := m, responses := s.responses ++ [⟨0#3, 0#32⟩] } ∧
      m.read 1 = some (c.extractLsb' 4 4 ++ v.extractLsb' 0 4) ∧
      ∀ k, k ≠ 1 → m.read k = s.image.read k

/-! Codec laws -/

/-- LTC: the decode's two forms agree; the encode is `trunc_24(v * 32)` in three bytes with the five unused bits 0,
and decode after encode is `v` in range and the 19-bit sign extension otherwise (42_codec_integer.md R151, R152). -/
def Obligations.LtcCodecLaws : Prop :=
  (∀ h m l : Byte, decLTC (h ++ m ++ l).toNat = (h ++ m ++ l).toInt / 32 ∧
      decLTC (h ++ m ++ l).toNat = (h ++ m ++ l ++ 0#8).toInt / 8192) ∧
    ∀ v : Int, (encLTC v : Int) = v * 32 % 16777216 ∧
      (∃ h m l : Byte, splitBytes 3 (encLTC v) = [h, m, l] ∧ l.extractLsb' 0 5 = 0#5 ∧
        (h ++ m ++ l).toNat = encLTC v) ∧
      (-262144 ≤ v → v ≤ 262143 → decLTC (encLTC v) = v) ∧ decLTC (encLTC v) = (BitVec.ofInt 19 v).toInt

/-- CJT: the encode is `trunc_16(v * 4)` in two bytes with the two unused bits 0, and decode after encode is `v` in
range and the 14-bit sign extension otherwise (42_codec_integer.md R154). -/
def Obligations.CjtCodecLaws : Prop :=
  ∀ v : Int, (encCJT v : Int) = v * 4 % 65536 ∧
    (∃ h l : Byte, splitBytes 2 (encCJT v) = [h, l] ∧ l.extractLsb' 0 2 = 0#2 ∧
      (h ++ l).toNat = encCJT v) ∧
    (-8192 ≤ v → v ≤ 8191 → decCJT (encCJT v) = v) ∧ decCJT (encCJT v) = (BitVec.ofInt 14 v).toInt

/-- Encode after decode gives the bytes back, the unused bits cleared (42_codec_integer.md R158). -/
def Obligations.EncodeAfterDecode : Prop :=
  (∀ h m l : Byte, encLTC (decLTC (h ++ m ++ l).toNat) = (h ++ m ++ (l &&& 0xE0#8)).toNat) ∧
    (∀ h l : Byte, encCJT (decCJT (h ++ l).toNat) = (h ++ (l &&& 0xFC#8)).toNat) ∧
    (∀ h l : Byte, encS16 (decS16 (h ++ l).toNat) = (h ++ l).toNat) ∧
    ∀ b : Byte, encS8 (decS8 b.toNat) = b.toNat

/-! Binary32 -/

/-- A pattern that is no NaN is the pattern of its value, and the pattern of a NaN is a NaN's (00_scope.md R16,
43_codec_float.md R200). -/
def Obligations.PatternsRoundTrip : Prop :=
  (∀ p : Word, F32.ofBits p ≠ .nan → (F32.ofBits p).bits = p) ∧ F32.ofBits F32.nan.bits = .nan

/-- The constants of the conversions: `C18`, 32.0 and the scales (00_scope.md R16, 43_codec_float.md R200, R201). -/
def Obligations.ConversionConstants : Prop :=
  c18 = F32.ofBits 0x3FE66666#32 ∧ c18.bits = 0x3FE66666#32 ∧ (f32OfNat 32).bits = 0x42000000#32 ∧
    (f32OfNat Quantity.ltc.scale).bits = 0x43000000#32 ∧ (f32OfNat Quantity.cjt.scale).bits = 0x42800000#32 ∧
    (f32OfNat Quantity.lthft.scale).bits = 0x41800000#32 ∧ (f32OfNat Quantity.cjhf.scale).bits = 0x3F800000#32

/-- The four operations on finite values are the exact result rounded to nearest, ties to even
(00_scope.md R16, 43_codec_float.md R200). That the result is an infinity from 2^128 - 2^103 on is the model's, taken
from IEEE 754 (log 12, PRESUMED). -/
def Obligations.FloatOperationsRoundToNearest : Prop :=
  ∀ (x y : F32) (vx vy : ℚ), x.value = some vx → y.value = some vy →
    RoundsTo (vx + vy) (fadd x y) ∧ RoundsTo (vx - vy) (fsub x y) ∧ RoundsTo (vx * vy) (fmul x y) ∧
      (vy ≠ 0 → RoundsTo (vx / vy) (fdiv x y))

/-- The Celsius getters answer exactly the raw value over the scale, a zero with a plus sign, and change nothing
else (43_codec_float.md R201, R205, R209). -/
def Obligations.CelsiusGettersAreExact : Prop :=
  ∀ p ∈ celsiusGetters, ∀ (s : State) (r : Int), readRaw s p.1 = .ok r →
    ∃ (f : Word) (n : Nat), exec p.2 s = .next { s with responses := s.responses ++ [⟨0#3, f⟩] } ∧
      F32.ofBits f = .fin (decide (r < 0)) n ∧ n * p.1.scale = r.natAbs * 2 ^ 149

/-- The Fahrenheit getters answer `C × C18 + 32` with two roundings, that of the offset `C × C18` alone, and change
nothing else (43_codec_float.md R202, R209). -/
def Obligations.FahrenheitGettersFollowFormula : Prop :=
  ∀ p ∈ fahrenheitGetters, ∀ (s : State) (r : Int), readRaw s p.1 = .ok r →
    exec p.2 s = .next { s with responses := s.responses ++ [⟨0#3,
      (if p.1 = .cjto then fmul (toC p.1 r) (F32.ofBits 0x3FE66666#32)
        else fadd (fmul (toC p.1 r) (F32.ofBits 0x3FE66666#32)) (F32.ofBits 0x42000000#32)).bits⟩] }

/-- No float getter answers a NaN, an infinity or -0.0 (43_codec_float.md R209). -/
def Obligations.FloatGettersAnswerFinite : Prop :=
  ∀ p ∈ celsiusGetters ++ fahrenheitGetters, ∀ (s : State) (r : Int), readRaw s p.1 = .ok r →
    ∃ (f : Word) (neg : Bool) (n : Nat),
      exec p.2 s = .next { s with responses := s.responses ++ [⟨0#3, f⟩] } ∧
      F32.ofBits f = .fin neg n ∧ (n = 0 → neg = false)

/-- A Celsius setter of a finite value is the integer setter of the value times the scale, truncated toward zero,
where that is a 32-bit integer (43_codec_float.md R203, R205, R229). -/
def Obligations.CelsiusSettersTruncate : Prop :=
  ∀ p ∈ celsiusSetters, ∀ (s : State) (f : Word) (neg : Bool) (n : Nat) (v : Int),
    F32.ofBits f = .fin neg n → v = (if neg then -1 else 1) * ((n * p.1.scale / 2 ^ 149 : Nat) : Int) →
    -2147483648 ≤ v → v < 2147483648 →
    ∃ u, exec (p.2.1 f) s = .next u ∧ exec (p.2.2 (BitVec.ofInt 32 v)) s = .next u

/-- A Celsius setter of a NaN, an infinity or a value with no 32-bit integer answers `E_FPDOMAIN` and changes
nothing (43_codec_float.md R203, 60_exceptions.md R307). -/
def Obligations.CelsiusSettersRefuse : Prop :=
  ∀ p ∈ celsiusSetters, ∀ (s : State) (f : Word),
    F32.ofBits f = .nan ∨ (∃ neg, F32.ofBits f = .inf neg) ∨
      (∃ (neg : Bool) (n : Nat) (v : Int), F32.ofBits f = .fin neg n ∧
        v = (if neg then -1 else 1) * ((n * p.1.scale / 2 ^ 149 : Nat) : Int) ∧
        (v < -2147483648 ∨ 2147483648 ≤ v)) →
    exec (p.2.1 f) s = .next { s with responses := s.responses ++ [⟨5#3, 0#32⟩] }

/-- A Fahrenheit setter is the integer setter of `(F - 32) / C18` (`F / C18` for the offset) times the scale,
truncated toward zero, or `E_FPDOMAIN` with nothing changed where that has no 32-bit integer
(43_codec_float.md R203, R204, R229, 60_exceptions.md R307). -/
def Obligations.FahrenheitSettersFollowFormula : Prop :=
  ∀ p ∈ fahrenheitSetters, ∀ (s : State) (f : Word) (c : F32),
    c = (if p.1 = .cjto then fdiv (F32.ofBits f) (F32.ofBits 0x3FE66666#32)
      else fdiv (fsub (F32.ofBits f) (F32.ofBits 0x42000000#32)) (F32.ofBits 0x3FE66666#32)) →
    (∀ (neg : Bool) (n : Nat) (v : Int), c = .fin neg n →
      v = (if neg then -1 else 1) * ((n * p.1.scale / 2 ^ 149 : Nat) : Int) →
      (-2147483648 ≤ v ∧ v < 2147483648 →
        ∃ u, exec (p.2.1 f) s = .next u ∧ exec (p.2.2 (BitVec.ofInt 32 v)) s = .next u) ∧
      (v < -2147483648 ∨ 2147483648 ≤ v →
        exec (p.2.1 f) s = .next { s with responses := s.responses ++ [⟨5#3, 0#32⟩] })) ∧
    (c = .nan ∨ (∃ neg, c = .inf neg) →
      exec (p.2.1 f) s = .next { s with responses := s.responses ++ [⟨5#3, 0#32⟩] }) ∧
    (F32.ofBits f = .nan → c = .nan) ∧ (∀ neg, F32.ofBits f = .inf neg → c = .inf neg)

/-- SETC of the value GETC answers, from any state at all, answers `OK` and stores the raw value again
(43_codec_float.md R205, R250). -/
def Obligations.CelsiusRoundTripIsExact : Prop :=
  ∀ p ∈ celsiusPairs, ∀ (s s' : State) (r : Int), readRaw s p.1 = .ok r →
    ∃ (f : Word) (u : State), exec p.2.1 s = .next { s with responses := s.responses ++ [⟨0#3, f⟩] } ∧
      exec (p.2.2 f) s' = .next u ∧ u.responses = s'.responses ++ [⟨0#3, 0#32⟩] ∧ readRaw u p.1 = .ok r

/-- SETF of the value GETF answers, from any state at all, answers `OK` and stores a raw value at most one away
(43_codec_float.md R250). -/
def Obligations.FahrenheitRoundTripWithinOne : Prop :=
  ∀ p ∈ fahrenheitPairs, ∀ (s s' : State) (r : Int), readRaw s p.1 = .ok r →
    ∃ (f : Word) (u : State) (r' : Int), exec p.2.1 s = .next { s with responses := s.responses ++ [⟨0#3, f⟩] } ∧
      exec (p.2.2 f) s' = .next u ∧ u.responses = s'.responses ++ [⟨0#3, 0#32⟩] ∧
      readRaw u p.1 = .ok r' ∧ (r' - r).natAbs ≤ 1

/-- Of the 256 raw values of CJHF, 24 come back from Fahrenheit one lower, 12 one higher and 220 exact
(43_codec_float.md R250). -/
def Obligations.CjhfFahrenheitMisses : Prop :=
  let back := (List.range 256).map fun k => (fromF .cjhf (toF .cjhf ((k : Int) - 128))).map
    fun n => n - ((k : Int) - 128)
  back.count (some (-1)) = 24 ∧ back.count (some 1) = 12 ∧ back.count (some 0) = 220

/-! Transactions -/

/-- INIT with no failed exchange configures the line, exchanges the address byte 0x00 and sixteen fill bytes, stores
each byte in its cell, and answers `OK` with 0 (41_transactions.md R120, R121). -/
def Obligations.InitReadsAllCells : Prop :=
  ∀ (s : State) (a0 : Byte) (rs : List Byte), rs.length = 16 → s.busAnswerAt 0 = .byte a0 →
    (∀ k (h : k < rs.length), s.busAnswerAt (k + 1) = .byte rs[k]) →
    ∃ m, exec .init s = .next { s with
        image := m
        initialized := true
        csConfigured := true
        csAsserted := false
        busHeld := false
        phase := .idle
        txn := none
        trace := s.trace ++ ([.acquire, .select, .xchg 0x00#8 a0] ++
          rs.map (fun r => .xchg s.params.readFill r) ++ [.deselect, .release])
        responses := s.responses ++ [⟨0#3, 0#32⟩]
        busAnswers := s.busAnswers.drop 17
        exchanges := s.exchanges + 17 } ∧
      (∀ k (h : k < rs.length), m.read k = some rs[k]) ∧ ∀ k, 16 ≤ k → m.read k = s.image.read k

/-- REFRESH with no failed exchange reads all sixteen cells and answers the status byte, the last byte read
(41_transactions.md R126, R127, 20_memory.md R77). -/
def Obligations.RefreshReadsAllCells : Prop :=
  ∀ (s : State) (a0 : Byte) (rs : List Byte) (h16 : rs.length = 16), s.initialized = true →
    s.busAnswerAt 0 = .byte a0 →
    (∀ k (h : k < rs.length), s.busAnswerAt (k + 1) = .byte rs[k]) →
    ∃ m, exec .refresh s = .next { s with
        image := m
        csAsserted := false
        busHeld := false
        phase := .idle
        txn := none
        trace := s.trace ++ ([.acquire, .select, .xchg 0x00#8 a0] ++
          rs.map (fun r => .xchg s.params.readFill r) ++ [.deselect, .release])
        responses := s.responses ++ [⟨0#3, (rs[15]'(by omega)).setWidth 32⟩]
        busAnswers := s.busAnswers.drop 17
        exchanges := s.exchanges + 17 } ∧
      (∀ k (h : k < rs.length), m.read k = some rs[k]) ∧ ∀ k, 16 ≤ k → m.read k = s.image.read k

/-- INIT and REFRESH after a failed exchange: `E_BUS`, deselected and released at once, the cells before the failed
data exchange new and the others as before; none new if the address exchange failed (41_transactions.md R120, R122,
R123, 60_exceptions.md R303). -/
def Obligations.FailedReadKeepsReceivedCells : Prop :=
  ∀ (i : Instr) (s base : State),
    (i = .init ∧ base = { s with initialized := true, csConfigured := true }) ∨
      (i = .refresh ∧ s.initialized = true ∧ base = s) →
    (s.busAnswerAt 0 = .fail →
      exec i s = .next { base with
        csAsserted := false
        busHeld := false
        phase := .idle
        txn := none
        trace := s.trace ++ [.acquire, .select, .xchgFail 0x00#8, .deselect, .release]
        responses := s.responses ++ [⟨4#3, 0#32⟩]
        busAnswers := s.busAnswers.drop 1
        exchanges := s.exchanges + 1 }) ∧
    ∀ (a0 : Byte) (rs : List Byte), rs.length ≤ 15 → s.busAnswerAt 0 = .byte a0 →
      (∀ k (h : k < rs.length), s.busAnswerAt (k + 1) = .byte rs[k]) →
      s.busAnswerAt (rs.length + 1) = .fail →
      ∃ m, exec i s = .next { base with
          image := m
          csAsserted := false
          busHeld := false
          phase := .idle
          txn := none
          trace := s.trace ++ ([.acquire, .select, .xchg 0x00#8 a0] ++
            rs.map (fun r => .xchg s.params.readFill r) ++
            [.xchgFail s.params.readFill, .deselect, .release])
          responses := s.responses ++ [⟨4#3, 0#32⟩]
          busAnswers := s.busAnswers.drop (rs.length + 2)
          exchanges := s.exchanges + (rs.length + 2) } ∧
        (∀ k (h : k < rs.length), m.read k = some rs[k]) ∧
        ∀ k, rs.length ≤ k → m.read k = s.image.read k

/-- COMMIT with no failed exchange sends 0x80 and then cells 0 .. N-1 as they stand, N = 12 or 10 by CJ, answers `OK`
with 0, and leaves the image unchanged (41_transactions.md R130, R131, R132). -/
def Obligations.CommitSendsWritablePrefix : Prop :=
  ∀ (s : State) (cr0 a0 : Byte) (outs ins : List Byte), s.initialized = true → s.cell 0#4 = some cr0 →
    outs.length = (if cr0.getLsbD 3 then 12 else 10) →
    (∀ k (h : k < outs.length), s.cell (BitVec.ofNat 4 k) = some outs[k]) →
    ins.length = outs.length → s.busAnswerAt 0 = .byte a0 →
    (∀ k (h : k < ins.length), s.busAnswerAt (k + 1) = .byte ins[k]) →
    exec .commit s = .next { s with
      csAsserted := false
      busHeld := false
      phase := .idle
      txn := none
      trace := s.trace ++ ([.acquire, .select, .xchg 0x80#8 a0] ++
        List.zipWith BusEvent.xchg outs ins ++ [.deselect, .release])
      responses := s.responses ++ [⟨0#3, 0#32⟩]
      busAnswers := s.busAnswers.drop (outs.length + 1)
      exchanges := s.exchanges + (outs.length + 1) }

/-- COMMIT after a failed exchange: `E_BUS`, deselected and released at once, the image unchanged
(41_transactions.md R122, R133, 60_exceptions.md R303). -/
def Obligations.FailedCommitKeepsImage : Prop :=
  ∀ (s : State) (cr0 : Byte) (outs ins : List Byte), s.initialized = true → s.cell 0#4 = some cr0 →
    outs.length = (if cr0.getLsbD 3 then 12 else 10) →
    (∀ k (h : k < outs.length), s.cell (BitVec.ofNat 4 k) = some outs[k]) →
    (hlen : ins.length ≤ outs.length) →
    (∀ k (h : k < ins.length), s.busAnswerAt k = .byte ins[k]) → s.busAnswerAt ins.length = .fail →
    exec .commit s = .next { s with
      csAsserted := false
      busHeld := false
      phase := .idle
      txn := none
      trace := s.trace ++ ([.acquire, .select] ++ List.zipWith BusEvent.xchg (0x80#8 :: outs) ins ++
        [.xchgFail ((0x80#8 :: outs)[ins.length]'(by simp; omega)), .deselect, .release])
      responses := s.responses ++ [⟨4#3, 0#32⟩]
      busAnswers := s.busAnswers.drop (ins.length + 1)
      exchanges := s.exchanges + (ins.length + 1) }

/-- Before INIT, REFRESH and COMMIT answer `E_NOTINIT` with no bus call and no state change; no other command
answers it (60_exceptions.md R302). -/
def Obligations.TransactionsNeedInit : Prop :=
  (∀ s : State, s.initialized = false →
      exec .refresh s = .next { s with responses := s.responses ++ [⟨3#3, 0#32⟩] } ∧
      exec .commit s = .next { s with responses := s.responses ++ [⟨3#3, 0#32⟩] }) ∧
    ∀ (i : Instr) (s t : State) (v : Word), i ≠ .refresh → i ≠ .commit → exec i s = .next t →
      t.responses ≠ s.responses ++ [⟨3#3, v⟩]

/-- COMMIT records `UninitRead` at the lowest cell it must send that is undefined, before any bus call and with
nothing else changed (41_transactions.md R130, 60_exceptions.md R305; log 5). -/
def Obligations.CommitOfUndefinedCellIsRecorded : Prop :=
  ∀ s : State, s.initialized = true →
    (s.cell 0#4 = none →
      exec .commit s = .next { s with faultRecord := some (.uninitRead 0#4) }) ∧
    ∀ (cr0 : Byte) (j : Nat), s.cell 0#4 = some cr0 → j < (if cr0.getLsbD 3 then 12 else 10) →
      (∀ k, k < j → s.cell (BitVec.ofNat 4 k) ≠ none) → s.cell (BitVec.ofNat 4 j) = none →
      exec .commit s = .next { s with faultRecord := some (.uninitRead (BitVec.ofNat 4 j)) }

/-- REFRESH and then COMMIT sends exactly the bytes received: 0x80, then the first 12 or 10 of them by bit 3 of the
first (20_memory.md R78). -/
def Obligations.RefreshThenCommitRoundTrip : Prop :=
  ∀ (s t : State) (a0 b0 : Byte) (rs ins : List Byte) (h16 : rs.length = 16), s.initialized = true →
    s.busAnswerAt 0 = .byte a0 → (∀ k (h : k < rs.length), s.busAnswerAt (k + 1) = .byte rs[k]) →
    exec .refresh s = .next t → t.busAnswerAt 0 = .byte b0 →
    ins.length = (if (rs[0]'(by omega)).getLsbD 3 then 12 else 10) →
    (∀ k (h : k < ins.length), t.busAnswerAt (k + 1) = .byte ins[k]) →
    ∃ u, exec .commit t = .next u ∧ u.responses = t.responses ++ [⟨0#3, 0#32⟩] ∧
      u.trace = t.trace ++ ([.acquire, .select, .xchg 0x80#8 b0] ++
        List.zipWith BusEvent.xchg (rs.take ins.length) ins ++ [.deselect, .release])

/-- Two COMMITs that succeed with no image write between them send the same bytes (20_memory.md R67). -/
def Obligations.CommitIsRepeatable : Prop :=
  ∀ s t t' u : State, exec .commit s = .next t → t.responses = s.responses ++ [⟨0#3, 0#32⟩] →
    t'.image = t.image → exec .commit t' = .next u → u.responses = t'.responses ++ [⟨0#3, 0#32⟩] →
    (t.trace.drop s.trace.length).filterMap BusEvent.sent =
      (u.trace.drop t'.trace.length).filterMap BusEvent.sent

/-- The commands that are not INIT, REFRESH or COMMIT call no bus and change no control state
(41_transactions.md R137, 10_state.md R41). -/
def Obligations.OtherCommandsCallNoBus : Prop :=
  ∀ (i : Instr) (s t : State), callsBus i = false → exec i s = .next t →
    t.trace = s.trace ∧ t.busAnswers = s.busAnswers ∧ t.exchanges = s.exchanges ∧
      t.initialized = s.initialized ∧ t.csConfigured = s.csConfigured ∧ t.csAsserted = s.csAsserted ∧
      t.busHeld = s.busHeld ∧ t.phase = s.phase ∧ t.txn = s.txn

/-- Only INIT sets `initialized`, and it does so whether or not its refresh succeeds; no command clears it
(10_state.md R41, 41_transactions.md R120). -/
def Obligations.OnlyInitSetsInitialized : Prop :=
  (∀ s : State, ∃ t, exec .init s = .next t ∧ t.initialized = true ∧ t.csConfigured = true) ∧
    ∀ (i : Instr) (s t : State), i ≠ .init → exec i s = .next t →
      t.initialized = s.initialized ∧ t.csConfigured = s.csConfigured

/-- Each step leaves the trace as it is, or adds one well-bracketed frame (20_memory.md R71,
41_transactions.md R121, R122, 70_reset_and_hazards.md R352). -/
def Obligations.TraceGrowsByFrames : Prop :=
  ∀ s t : State, step s = .next t →
    t.trace = s.trace ∨ ∃ evs, t.trace = s.trace ++ evs ∧ WellBracketed evs

/-- Every step keeps the invariant: quiet between commands, the memory in canonical form, every response legal, and
initialized exactly when the line is configured (10_state.md R30, R41, R48, 60_exceptions.md R300). -/
def Obligations.StepKeepsInvariant : Prop := ∀ s t : State, Inv s → step s = .next t → Inv t

/-- Reset has the invariant (10_state.md R51). -/
def Obligations.ResetHasInvariant : Prop := Inv State.reset

/-- Every transaction command, from any state and whatever the environment answers, ends deselected, with the bus
released and the phase `IDLE` (10_state.md R48, 41_transactions.md R137); REFRESH and COMMIT once INIT was done,
COMMIT where it answers (it does not where it records `UninitRead`). -/
def Obligations.TransactionsEndReleased : Prop :=
  ∀ (i : Instr) (s t : State), exec i s = .next t →
    i = .init ∨ (s.initialized = true ∧ (i = .refresh ∨ (i = .commit ∧ t.responses ≠ s.responses))) →
    Quiescent t

/-- The select line is not driven until configured, then at the active level while the device is selected and at the
other level otherwise; reset leaves it neither configured nor selected (10_state.md R42). -/
def Obligations.SelectLineLevel : Prop :=
  (∀ s : State, (s.csConfigured = false → s.csLevel = none) ∧
    (s.csConfigured = true → s.csAsserted = true → s.csLevel = some s.params.csActiveLevel) ∧
    (s.csConfigured = true → s.csAsserted = false →
      ∃ l, s.csLevel = some l ∧ l ≠ s.params.csActiveLevel)) ∧
    State.reset.csConfigured = false ∧ State.reset.csAsserted = false
end

