-- ==== Sys2Proof/Laws/State.lean ====
section
/-! SUPPORT. For each update of the state, one lemma per field. -/

namespace Sys2Proof.Machine

@[simp] theorem setCell_params (s : State) (a : CellAddr) (b : Byte) : (s.setCell a b).params = s.params := rfl
@[simp] theorem setCell_image (s : State) (a : CellAddr) (b : Byte) : (s.setCell a b).image = s.image.write a.toNat b := rfl
@[simp] theorem setCell_initialized (s : State) (a : CellAddr) (b : Byte) : (s.setCell a b).initialized = s.initialized := rfl
@[simp] theorem setCell_csConfigured (s : State) (a : CellAddr) (b : Byte) : (s.setCell a b).csConfigured = s.csConfigured := rfl
@[simp] theorem setCell_csAsserted (s : State) (a : CellAddr) (b : Byte) : (s.setCell a b).csAsserted = s.csAsserted := rfl
@[simp] theorem setCell_busHeld (s : State) (a : CellAddr) (b : Byte) : (s.setCell a b).busHeld = s.busHeld := rfl
@[simp] theorem setCell_phase (s : State) (a : CellAddr) (b : Byte) : (s.setCell a b).phase = s.phase := rfl
@[simp] theorem setCell_txn (s : State) (a : CellAddr) (b : Byte) : (s.setCell a b).txn = s.txn := rfl
@[simp] theorem setCell_trace (s : State) (a : CellAddr) (b : Byte) : (s.setCell a b).trace = s.trace := rfl
@[simp] theorem setCell_responses (s : State) (a : CellAddr) (b : Byte) : (s.setCell a b).responses = s.responses := rfl
@[simp] theorem setCell_faultRecord (s : State) (a : CellAddr) (b : Byte) : (s.setCell a b).faultRecord = s.faultRecord := rfl
@[simp] theorem setCell_commands (s : State) (a : CellAddr) (b : Byte) : (s.setCell a b).commands = s.commands := rfl
@[simp] theorem setCell_busAnswers (s : State) (a : CellAddr) (b : Byte) : (s.setCell a b).busAnswers = s.busAnswers := rfl
@[simp] theorem setCell_exchanges (s : State) (a : CellAddr) (b : Byte) : (s.setCell a b).exchanges = s.exchanges := rfl

@[simp] theorem respond_params (c : RespCode) (v : Word) (s : State) : (respond c v s).params = s.params := rfl
@[simp] theorem respond_image (c : RespCode) (v : Word) (s : State) : (respond c v s).image = s.image := rfl
@[simp] theorem respond_initialized (c : RespCode) (v : Word) (s : State) : (respond c v s).initialized = s.initialized := rfl
@[simp] theorem respond_csConfigured (c : RespCode) (v : Word) (s : State) : (respond c v s).csConfigured = s.csConfigured := rfl
@[simp] theorem respond_csAsserted (c : RespCode) (v : Word) (s : State) : (respond c v s).csAsserted = s.csAsserted := rfl
@[simp] theorem respond_busHeld (c : RespCode) (v : Word) (s : State) : (respond c v s).busHeld = s.busHeld := rfl
@[simp] theorem respond_phase (c : RespCode) (v : Word) (s : State) : (respond c v s).phase = s.phase := rfl
@[simp] theorem respond_txn (c : RespCode) (v : Word) (s : State) : (respond c v s).txn = s.txn := rfl
@[simp] theorem respond_trace (c : RespCode) (v : Word) (s : State) : (respond c v s).trace = s.trace := rfl
@[simp] theorem respond_responses (c : RespCode) (v : Word) (s : State) : (respond c v s).responses = s.responses ++ [⟨c.bits, v⟩] := rfl
@[simp] theorem respond_faultRecord (c : RespCode) (v : Word) (s : State) : (respond c v s).faultRecord = s.faultRecord := rfl
@[simp] theorem respond_commands (c : RespCode) (v : Word) (s : State) : (respond c v s).commands = s.commands := rfl
@[simp] theorem respond_busAnswers (c : RespCode) (v : Word) (s : State) : (respond c v s).busAnswers = s.busAnswers := rfl
@[simp] theorem respond_exchanges (c : RespCode) (v : Word) (s : State) : (respond c v s).exchanges = s.exchanges := rfl

@[simp] theorem raise_params (c : RespCode) (s : State) : (raise c s).params = s.params := rfl
@[simp] theorem raise_image (c : RespCode) (s : State) : (raise c s).image = s.image := rfl
@[simp] theorem raise_initialized (c : RespCode) (s : State) : (raise c s).initialized = s.initialized := rfl
@[simp] theorem raise_csConfigured (c : RespCode) (s : State) : (raise c s).csConfigured = s.csConfigured := rfl
@[simp] theorem raise_csAsserted (c : RespCode) (s : State) : (raise c s).csAsserted = s.csAsserted := rfl
@[simp] theorem raise_busHeld (c : RespCode) (s : State) : (raise c s).busHeld = s.busHeld := rfl
@[simp] theorem raise_phase (c : RespCode) (s : State) : (raise c s).phase = s.phase := rfl
@[simp] theorem raise_txn (c : RespCode) (s : State) : (raise c s).txn = s.txn := rfl
@[simp] theorem raise_trace (c : RespCode) (s : State) : (raise c s).trace = s.trace := rfl
@[simp] theorem raise_responses (c : RespCode) (s : State) : (raise c s).responses = s.responses ++ [⟨c.bits, 0#32⟩] := rfl
@[simp] theorem raise_faultRecord (c : RespCode) (s : State) : (raise c s).faultRecord = s.faultRecord := rfl
@[simp] theorem raise_commands (c : RespCode) (s : State) : (raise c s).commands = s.commands := rfl
@[simp] theorem raise_busAnswers (c : RespCode) (s : State) : (raise c s).busAnswers = s.busAnswers := rfl
@[simp] theorem raise_exchanges (c : RespCode) (s : State) : (raise c s).exchanges = s.exchanges := rfl

@[simp] theorem recordFault_params (f : Fault) (s : State) : (recordFault f s).params = s.params := rfl
@[simp] theorem recordFault_image (f : Fault) (s : State) : (recordFault f s).image = s.image := rfl
@[simp] theorem recordFault_initialized (f : Fault) (s : State) : (recordFault f s).initialized = s.initialized := rfl
@[simp] theorem recordFault_csConfigured (f : Fault) (s : State) : (recordFault f s).csConfigured = s.csConfigured := rfl
@[simp] theorem recordFault_csAsserted (f : Fault) (s : State) : (recordFault f s).csAsserted = s.csAsserted := rfl
@[simp] theorem recordFault_busHeld (f : Fault) (s : State) : (recordFault f s).busHeld = s.busHeld := rfl
@[simp] theorem recordFault_phase (f : Fault) (s : State) : (recordFault f s).phase = s.phase := rfl
@[simp] theorem recordFault_txn (f : Fault) (s : State) : (recordFault f s).txn = s.txn := rfl
@[simp] theorem recordFault_trace (f : Fault) (s : State) : (recordFault f s).trace = s.trace := rfl
@[simp] theorem recordFault_responses (f : Fault) (s : State) : (recordFault f s).responses = s.responses := rfl
@[simp] theorem recordFault_faultRecord (f : Fault) (s : State) : (recordFault f s).faultRecord = some f := rfl
@[simp] theorem recordFault_commands (f : Fault) (s : State) : (recordFault f s).commands = s.commands := rfl
@[simp] theorem recordFault_busAnswers (f : Fault) (s : State) : (recordFault f s).busAnswers = s.busAnswers := rfl
@[simp] theorem recordFault_exchanges (f : Fault) (s : State) : (recordFault f s).exchanges = s.exchanges := rfl

@[simp] theorem issueNext_params (s : State) (w : CmdWord) : (issueNext s w).params = s.params := rfl
@[simp] theorem issueNext_image (s : State) (w : CmdWord) : (issueNext s w).image = s.image := rfl
@[simp] theorem issueNext_initialized (s : State) (w : CmdWord) : (issueNext s w).initialized = s.initialized := rfl
@[simp] theorem issueNext_csConfigured (s : State) (w : CmdWord) : (issueNext s w).csConfigured = s.csConfigured := rfl
@[simp] theorem issueNext_csAsserted (s : State) (w : CmdWord) : (issueNext s w).csAsserted = s.csAsserted := rfl
@[simp] theorem issueNext_busHeld (s : State) (w : CmdWord) : (issueNext s w).busHeld = s.busHeld := rfl
@[simp] theorem issueNext_phase (s : State) (w : CmdWord) : (issueNext s w).phase = s.phase := rfl
@[simp] theorem issueNext_txn (s : State) (w : CmdWord) : (issueNext s w).txn = s.txn := rfl
@[simp] theorem issueNext_trace (s : State) (w : CmdWord) : (issueNext s w).trace = s.trace := rfl
@[simp] theorem issueNext_responses (s : State) (w : CmdWord) : (issueNext s w).responses = s.responses := rfl
@[simp] theorem issueNext_faultRecord (s : State) (w : CmdWord) : (issueNext s w).faultRecord = s.faultRecord := rfl
@[simp] theorem issueNext_commands (s : State) (w : CmdWord) : (issueNext s w).commands = w :: s.commands := rfl
@[simp] theorem issueNext_busAnswers (s : State) (w : CmdWord) : (issueNext s w).busAnswers = s.busAnswers := rfl
@[simp] theorem issueNext_exchanges (s : State) (w : CmdWord) : (issueNext s w).exchanges = s.exchanges := rfl

@[simp] theorem enterPhase_params (p : Phase) (s : State) : (enterPhase p s).params = s.params := rfl
@[simp] theorem enterPhase_image (p : Phase) (s : State) : (enterPhase p s).image = s.image := rfl
@[simp] theorem enterPhase_initialized (p : Phase) (s : State) : (enterPhase p s).initialized = s.initialized := rfl
@[simp] theorem enterPhase_csConfigured (p : Phase) (s : State) : (enterPhase p s).csConfigured = s.csConfigured := rfl
@[simp] theorem enterPhase_csAsserted (p : Phase) (s : State) : (enterPhase p s).csAsserted = s.csAsserted := rfl
@[simp] theorem enterPhase_busHeld (p : Phase) (s : State) : (enterPhase p s).busHeld = s.busHeld := rfl
@[simp] theorem enterPhase_phase (p : Phase) (s : State) : (enterPhase p s).phase = p := rfl
@[simp] theorem enterPhase_txn (p : Phase) (s : State) : (enterPhase p s).txn = s.txn := rfl
@[simp] theorem enterPhase_trace (p : Phase) (s : State) : (enterPhase p s).trace = s.trace := rfl
@[simp] theorem enterPhase_responses (p : Phase) (s : State) : (enterPhase p s).responses = s.responses := rfl
@[simp] theorem enterPhase_faultRecord (p : Phase) (s : State) : (enterPhase p s).faultRecord = s.faultRecord := rfl
@[simp] theorem enterPhase_commands (p : Phase) (s : State) : (enterPhase p s).commands = s.commands := rfl
@[simp] theorem enterPhase_busAnswers (p : Phase) (s : State) : (enterPhase p s).busAnswers = s.busAnswers := rfl
@[simp] theorem enterPhase_exchanges (p : Phase) (s : State) : (enterPhase p s).exchanges = s.exchanges := rfl

@[simp] theorem beginTransaction_params (m : TxMode) (n : Nat) (s : State) : (beginTransaction m n s).params = s.params := rfl
@[simp] theorem beginTransaction_image (m : TxMode) (n : Nat) (s : State) : (beginTransaction m n s).image = s.image := rfl
@[simp] theorem beginTransaction_initialized (m : TxMode) (n : Nat) (s : State) : (beginTransaction m n s).initialized = s.initialized := rfl
@[simp] theorem beginTransaction_csConfigured (m : TxMode) (n : Nat) (s : State) : (beginTransaction m n s).csConfigured = s.csConfigured := rfl
@[simp] theorem beginTransaction_csAsserted (m : TxMode) (n : Nat) (s : State) : (beginTransaction m n s).csAsserted = s.csAsserted := rfl
@[simp] theorem beginTransaction_busHeld (m : TxMode) (n : Nat) (s : State) : (beginTransaction m n s).busHeld = s.busHeld := rfl
@[simp] theorem beginTransaction_phase (m : TxMode) (n : Nat) (s : State) : (beginTransaction m n s).phase = s.phase := rfl
@[simp] theorem beginTransaction_txn (m : TxMode) (n : Nat) (s : State) : (beginTransaction m n s).txn = some ⟨m, n⟩ := rfl
@[simp] theorem beginTransaction_trace (m : TxMode) (n : Nat) (s : State) : (beginTransaction m n s).trace = s.trace := rfl
@[simp] theorem beginTransaction_responses (m : TxMode) (n : Nat) (s : State) : (beginTransaction m n s).responses = s.responses := rfl
@[simp] theorem beginTransaction_faultRecord (m : TxMode) (n : Nat) (s : State) : (beginTransaction m n s).faultRecord = s.faultRecord := rfl
@[simp] theorem beginTransaction_commands (m : TxMode) (n : Nat) (s : State) : (beginTransaction m n s).commands = s.commands := rfl
@[simp] theorem beginTransaction_busAnswers (m : TxMode) (n : Nat) (s : State) : (beginTransaction m n s).busAnswers = s.busAnswers := rfl
@[simp] theorem beginTransaction_exchanges (m : TxMode) (n : Nat) (s : State) : (beginTransaction m n s).exchanges = s.exchanges := rfl

@[simp] theorem endTransaction_params (s : State) : (endTransaction s).params = s.params := rfl
@[simp] theorem endTransaction_image (s : State) : (endTransaction s).image = s.image := rfl
@[simp] theorem endTransaction_initialized (s : State) : (endTransaction s).initialized = s.initialized := rfl
@[simp] theorem endTransaction_csConfigured (s : State) : (endTransaction s).csConfigured = s.csConfigured := rfl
@[simp] theorem endTransaction_csAsserted (s : State) : (endTransaction s).csAsserted = s.csAsserted := rfl
@[simp] theorem endTransaction_busHeld (s : State) : (endTransaction s).busHeld = s.busHeld := rfl
@[simp] theorem endTransaction_phase (s : State) : (endTransaction s).phase = .idle := rfl
@[simp] theorem endTransaction_txn (s : State) : (endTransaction s).txn = none := rfl
@[simp] theorem endTransaction_trace (s : State) : (endTransaction s).trace = s.trace := rfl
@[simp] theorem endTransaction_responses (s : State) : (endTransaction s).responses = s.responses := rfl
@[simp] theorem endTransaction_faultRecord (s : State) : (endTransaction s).faultRecord = s.faultRecord := rfl
@[simp] theorem endTransaction_commands (s : State) : (endTransaction s).commands = s.commands := rfl
@[simp] theorem endTransaction_busAnswers (s : State) : (endTransaction s).busAnswers = s.busAnswers := rfl
@[simp] theorem endTransaction_exchanges (s : State) : (endTransaction s).exchanges = s.exchanges := rfl

@[simp] theorem busAcquire_params (s : State) : (busAcquire s).params = s.params := rfl
@[simp] theorem busAcquire_image (s : State) : (busAcquire s).image = s.image := rfl
@[simp] theorem busAcquire_initialized (s : State) : (busAcquire s).initialized = s.initialized := rfl
@[simp] theorem busAcquire_csConfigured (s : State) : (busAcquire s).csConfigured = s.csConfigured := rfl
@[simp] theorem busAcquire_csAsserted (s : State) : (busAcquire s).csAsserted = s.csAsserted := rfl
@[simp] theorem busAcquire_busHeld (s : State) : (busAcquire s).busHeld = true := rfl
@[simp] theorem busAcquire_phase (s : State) : (busAcquire s).phase = .acq := rfl
@[simp] theorem busAcquire_txn (s : State) : (busAcquire s).txn = s.txn := rfl
@[simp] theorem busAcquire_trace (s : State) : (busAcquire s).trace = s.trace ++ [.acquire] := rfl
@[simp] theorem busAcquire_responses (s : State) : (busAcquire s).responses = s.responses := rfl
@[simp] theorem busAcquire_faultRecord (s : State) : (busAcquire s).faultRecord = s.faultRecord := rfl
@[simp] theorem busAcquire_commands (s : State) : (busAcquire s).commands = s.commands := rfl
@[simp] theorem busAcquire_busAnswers (s : State) : (busAcquire s).busAnswers = s.busAnswers := rfl
@[simp] theorem busAcquire_exchanges (s : State) : (busAcquire s).exchanges = s.exchanges := rfl

@[simp] theorem busSelect_params (s : State) : (busSelect s).params = s.params := rfl
@[simp] theorem busSelect_image (s : State) : (busSelect s).image = s.image := rfl
@[simp] theorem busSelect_initialized (s : State) : (busSelect s).initialized = s.initialized := rfl
@[simp] theorem busSelect_csConfigured (s : State) : (busSelect s).csConfigured = s.csConfigured := rfl
@[simp] theorem busSelect_csAsserted (s : State) : (busSelect s).csAsserted = true := rfl
@[simp] theorem busSelect_busHeld (s : State) : (busSelect s).busHeld = s.busHeld := rfl
@[simp] theorem busSelect_phase (s : State) : (busSelect s).phase = .sel := rfl
@[simp] theorem busSelect_txn (s : State) : (busSelect s).txn = s.txn := rfl
@[simp] theorem busSelect_trace (s : State) : (busSelect s).trace = s.trace ++ [.select] := rfl
@[simp] theorem busSelect_responses (s : State) : (busSelect s).responses = s.responses := rfl
@[simp] theorem busSelect_faultRecord (s : State) : (busSelect s).faultRecord = s.faultRecord := rfl
@[simp] theorem busSelect_commands (s : State) : (busSelect s).commands = s.commands := rfl
@[simp] theorem busSelect_busAnswers (s : State) : (busSelect s).busAnswers = s.busAnswers := rfl
@[simp] theorem busSelect_exchanges (s : State) : (busSelect s).exchanges = s.exchanges := rfl

@[simp] theorem busXchg_params (o : Byte) (s : State) : (busXchg o s).2.params = s.params := rfl
@[simp] theorem busXchg_image (o : Byte) (s : State) : (busXchg o s).2.image = s.image := rfl
@[simp] theorem busXchg_initialized (o : Byte) (s : State) : (busXchg o s).2.initialized = s.initialized := rfl
@[simp] theorem busXchg_csConfigured (o : Byte) (s : State) : (busXchg o s).2.csConfigured = s.csConfigured := rfl
@[simp] theorem busXchg_csAsserted (o : Byte) (s : State) : (busXchg o s).2.csAsserted = s.csAsserted := rfl
@[simp] theorem busXchg_busHeld (o : Byte) (s : State) : (busXchg o s).2.busHeld = s.busHeld := rfl
@[simp] theorem busXchg_phase (o : Byte) (s : State) : (busXchg o s).2.phase = s.phase := rfl
@[simp] theorem busXchg_txn (o : Byte) (s : State) : (busXchg o s).2.txn = s.txn := rfl
@[simp] theorem busXchg_trace (o : Byte) (s : State) : (busXchg o s).2.trace = s.trace ++ [exchangeEvent o (s.busAnswerAt 0)] := rfl
@[simp] theorem busXchg_responses (o : Byte) (s : State) : (busXchg o s).2.responses = s.responses := rfl
@[simp] theorem busXchg_faultRecord (o : Byte) (s : State) : (busXchg o s).2.faultRecord = s.faultRecord := rfl
@[simp] theorem busXchg_commands (o : Byte) (s : State) : (busXchg o s).2.commands = s.commands := rfl
@[simp] theorem busXchg_busAnswers (o : Byte) (s : State) : (busXchg o s).2.busAnswers = s.busAnswers.tail := rfl
@[simp] theorem busXchg_exchanges (o : Byte) (s : State) : (busXchg o s).2.exchanges = s.exchanges + 1 := rfl

@[simp] theorem busDeselect_params (s : State) : (busDeselect s).params = s.params := rfl
@[simp] theorem busDeselect_image (s : State) : (busDeselect s).image = s.image := rfl
@[simp] theorem busDeselect_initialized (s : State) : (busDeselect s).initialized = s.initialized := rfl
@[simp] theorem busDeselect_csConfigured (s : State) : (busDeselect s).csConfigured = s.csConfigured := rfl
@[simp] theorem busDeselect_csAsserted (s : State) : (busDeselect s).csAsserted = false := rfl
@[simp] theorem busDeselect_busHeld (s : State) : (busDeselect s).busHeld = s.busHeld := rfl
@[simp] theorem busDeselect_phase (s : State) : (busDeselect s).phase = .desel := rfl
@[simp] theorem busDeselect_txn (s : State) : (busDeselect s).txn = s.txn := rfl
@[simp] theorem busDeselect_trace (s : State) : (busDeselect s).trace = s.trace ++ [.deselect] := rfl
@[simp] theorem busDeselect_responses (s : State) : (busDeselect s).responses = s.responses := rfl
@[simp] theorem busDeselect_faultRecord (s : State) : (busDeselect s).faultRecord = s.faultRecord := rfl
@[simp] theorem busDeselect_commands (s : State) : (busDeselect s).commands = s.commands := rfl
@[simp] theorem busDeselect_busAnswers (s : State) : (busDeselect s).busAnswers = s.busAnswers := rfl
@[simp] theorem busDeselect_exchanges (s : State) : (busDeselect s).exchanges = s.exchanges := rfl

@[simp] theorem busRelease_params (s : State) : (busRelease s).params = s.params := rfl
@[simp] theorem busRelease_image (s : State) : (busRelease s).image = s.image := rfl
@[simp] theorem busRelease_initialized (s : State) : (busRelease s).initialized = s.initialized := rfl
@[simp] theorem busRelease_csConfigured (s : State) : (busRelease s).csConfigured = s.csConfigured := rfl
@[simp] theorem busRelease_csAsserted (s : State) : (busRelease s).csAsserted = s.csAsserted := rfl
@[simp] theorem busRelease_busHeld (s : State) : (busRelease s).busHeld = false := rfl
@[simp] theorem busRelease_phase (s : State) : (busRelease s).phase = .rel := rfl
@[simp] theorem busRelease_txn (s : State) : (busRelease s).txn = s.txn := rfl
@[simp] theorem busRelease_trace (s : State) : (busRelease s).trace = s.trace ++ [.release] := rfl
@[simp] theorem busRelease_responses (s : State) : (busRelease s).responses = s.responses := rfl
@[simp] theorem busRelease_faultRecord (s : State) : (busRelease s).faultRecord = s.faultRecord := rfl
@[simp] theorem busRelease_commands (s : State) : (busRelease s).commands = s.commands := rfl
@[simp] theorem busRelease_busAnswers (s : State) : (busRelease s).busAnswers = s.busAnswers := rfl
@[simp] theorem busRelease_exchanges (s : State) : (busRelease s).exchanges = s.exchanges := rfl

@[simp] theorem configureLine_params (s : State) : (configureLine s).params = s.params := rfl
@[simp] theorem configureLine_image (s : State) : (configureLine s).image = s.image := rfl
@[simp] theorem configureLine_initialized (s : State) : (configureLine s).initialized = true := rfl
@[simp] theorem configureLine_csConfigured (s : State) : (configureLine s).csConfigured = true := rfl
@[simp] theorem configureLine_csAsserted (s : State) : (configureLine s).csAsserted = false := rfl
@[simp] theorem configureLine_busHeld (s : State) : (configureLine s).busHeld = s.busHeld := rfl
@[simp] theorem configureLine_phase (s : State) : (configureLine s).phase = s.phase := rfl
@[simp] theorem configureLine_txn (s : State) : (configureLine s).txn = s.txn := rfl
@[simp] theorem configureLine_trace (s : State) : (configureLine s).trace = s.trace := rfl
@[simp] theorem configureLine_responses (s : State) : (configureLine s).responses = s.responses := rfl
@[simp] theorem configureLine_faultRecord (s : State) : (configureLine s).faultRecord = s.faultRecord := rfl
@[simp] theorem configureLine_commands (s : State) : (configureLine s).commands = s.commands := rfl
@[simp] theorem configureLine_busAnswers (s : State) : (configureLine s).busAnswers = s.busAnswers := rfl
@[simp] theorem configureLine_exchanges (s : State) : (configureLine s).exchanges = s.exchanges := rfl

end Sys2Proof.Machine
end

