-- ==== Sys2Proof/Laws/Ops.lean ====
section
/-! SUPPORT. For each shared operation over cells, what it can do, said once. -/

namespace Sys2Proof.Machine

/-- What one cell's write does to every cell's read (10_state.md R31). -/
theorem cell_setCell (s : State) (a k : CellAddr) (b : Byte) :
    (s.setCell a b).cell k = if k = a then some b else s.cell k := by
  simp [State.cell, Memory.read_write, ← BitVec.toNat_inj]

/-- A cell's value depends on the image alone. -/
theorem cell_congr {s t : State} (h : t.image = s.image) (a : CellAddr) : t.cell a = s.cell a := by
  simp [State.cell, h]

theorem wf_setCell {s : State} (a : CellAddr) (b : Byte) (h : s.image.wf = true) :
    (s.setCell a b).image.wf = true :=
  Memory.wf_write b a.isLt h

theorem readCell_eq_ok {s : State} {a : CellAddr} {b : Byte} :
    readCell s a = .ok b ↔ s.cell a = some b := by
  unfold readCell; split <;> simp_all

theorem readCell_eq_error {s : State} {a e : CellAddr} :
    readCell s a = .error e ↔ s.cell a = none ∧ e = a := by
  unfold readCell; cases s.cell a <;> simp [eq_comm]

/-- A read of several cells that succeeds gives one byte for each, and each byte is its cell's. -/
theorem readFrom_eq_ok {s : State} {n : Nat} {a : CellAddr} {bs : List Byte} :
    readFrom s a n = .ok bs ↔
      bs.length = n ∧ ∀ k (h : k < bs.length), s.cell (a + BitVec.ofNat 4 k) = some bs[k] := by
  induction n generalizing a bs with
  | zero =>
    simp only [readFrom, Except.ok.injEq]
    constructor
    · rintro rfl; simp
    · rintro ⟨h, -⟩; exact (List.length_eq_zero_iff.1 h).symm
  | succ n ih =>
    have shift : ∀ k : Nat, a + 1#4 + BitVec.ofNat 4 k = a + BitVec.ofNat 4 (k + 1) := by
      intro k; apply BitVec.eq_of_toNat_eq; simp; omega
    unfold readFrom
    rcases h0 : readCell s a with e | b
    · rw [readCell_eq_error] at h0
      simp only [reduceCtorEq, false_iff]
      rintro ⟨hl, hc⟩
      have := hc 0 (by omega)
      simp_all
    · rw [readCell_eq_ok] at h0
      rcases h1 : readFrom s (a + 1#4) n with e | rest
      · simp only [reduceCtorEq, false_iff]
        rintro ⟨hl, hc⟩
        cases bs with
        | nil => simp at hl
        | cons c cs =>
          have : readFrom s (a + 1#4) n = .ok cs := by
            refine ih.2 ⟨by simpa using hl, fun k hk => ?_⟩
            rw [shift]; exact hc (k + 1) (by simpa using hk)
          rw [h1] at this; cases this
      · have hr := ih.1 h1
        simp only [Except.ok.injEq]
        constructor
        · rintro rfl
          refine ⟨by simp [hr.1], fun k hk => ?_⟩
          cases k with
          | zero => simpa using h0
          | succ k => rw [← shift]; simpa using hr.2 k (by simpa using hk)
        · rintro ⟨hl, hc⟩
          cases bs with
          | nil => simp at hl
          | cons c cs =>
            have hb : b = c := by have := hc 0 (by simp); simp_all
            have : readFrom s (a + 1#4) n = .ok cs := by
              refine ih.2 ⟨by simpa using hl, fun k hk => ?_⟩
              rw [shift]; exact hc (k + 1) (by simpa using hk)
            rw [h1] at this; cases this; rw [hb]

/-- A read of several cells that fails names an undefined cell, and every cell before it is defined. -/
theorem readFrom_eq_error {s : State} {n : Nat} {a e : CellAddr} (h : readFrom s a n = .error e) :
    ∃ j, j < n ∧ e = a + BitVec.ofNat 4 j ∧ s.cell e = none ∧
      ∀ k, k < j → s.cell (a + BitVec.ofNat 4 k) ≠ none := by
  induction n generalizing a with
  | zero => simp [readFrom] at h
  | succ n ih =>
    have shift : ∀ k : Nat, a + 1#4 + BitVec.ofNat 4 k = a + BitVec.ofNat 4 (k + 1) := by
      intro k; apply BitVec.eq_of_toNat_eq; simp; omega
    unfold readFrom at h
    rcases h0 : readCell s a with e' | b
    · rw [h0] at h
      obtain ⟨hc, rfl⟩ := readCell_eq_error.1 h0
      cases h
      exact ⟨0, by omega, by simp, hc, fun k hk => by omega⟩
    · rw [h0] at h
      rcases h1 : readFrom s (a + 1#4) n with e' | rest
      · rw [h1] at h; cases h
        obtain ⟨j, hj, he, hn, hd⟩ := ih h1
        refine ⟨j + 1, by omega, by rw [he, shift], hn, fun k hk => ?_⟩
        cases k with
        | zero => have := readCell_eq_ok.1 h0; simp [this]
        | succ k => rw [← shift]; exact hd k (by omega)
      · rw [h1] at h; cases h

/-- A write of several bytes changes the image only. -/
theorem writeFrom_eq (s : State) (a : CellAddr) (bs : List Byte) :
    writeFrom s a bs = { s with image := (writeFrom s a bs).image } := by
  induction bs generalizing s a with
  | nil => rfl
  | cons b rest ih => rw [writeFrom, ih]; rfl

theorem wf_writeFrom {s : State} (a : CellAddr) (bs : List Byte) (h : s.image.wf = true) :
    (writeFrom s a bs).image.wf = true := by
  induction bs generalizing s a with
  | nil => exact h
  | cons b rest ih => exact ih (a + 1#4) (wf_setCell a b h)

/-- Reading on after a read: the fault recorded at the undefined cell, or what follows the read. -/
theorem withRead_cases {α : Type} {r : Except CellAddr α} {s t : State} {k : α → State}
    (h : withRead r s k = t) :
    (∃ a, r = .error a ∧ t = { s with faultRecord := some (.uninitRead a) }) ∨
      (∃ v, r = .ok v ∧ t = k v) := by
  cases r with
  | error a => exact .inl ⟨a, rfl, h.symm⟩
  | ok v => exact .inr ⟨v, rfl, h.symm⟩

@[simp] theorem withRead_ok {α : Type} (v : α) (s : State) (k : α → State) : withRead (.ok v) s k = k v := rfl

@[simp] theorem withRead_error {α : Type} (a : CellAddr) (s : State) (k : α → State) :
    withRead (.error a) s k = recordFault (.uninitRead a) s := rfl

end Sys2Proof.Machine
end

