-- ==== Sys2Proof/Laws/Bus.lean ====
section
/-! SUPPORT. What the exchanges of a frame and a whole transaction can do, said once. -/

namespace Sys2Proof.Machine

/-- The events of the exchanges that send `outs` while the environment answers `ans`: up to the first failure. -/
def exchangeEvents (outs : List Byte) (ans : Nat → Config.BusAnswer) : List BusEvent :=
  match outs with
  | [] => []
  | out :: rest =>
    match ans 0 with
    | .fail => [.xchgFail out]
    | .byte b => .xchg out b :: exchangeEvents rest fun k => ans (k + 1)

/-- The image after the data exchanges from byte `i` on. -/
def storedImage (store : Bool) (i : Nat) (outs : List Byte) (ans : Nat → Config.BusAnswer) (m : Memory) : Memory :=
  match outs with
  | [] => m
  | _ :: rest =>
    match ans 0 with
    | .fail => m
    | .byte b =>
      storedImage store (i + 1) rest (fun k => ans (k + 1))
        (if store then m.write (BitVec.ofNat 4 i).toNat b else m)

/-- The outcome of the exchanges: `E_BUS` if one of them failed. -/
def exchangeCode (outs : List Byte) (ans : Nat → Config.BusAnswer) : RespCode :=
  match outs with
  | [] => .ok
  | _ :: rest =>
    match ans 0 with
    | .fail => .eBus
    | .byte _ => exchangeCode rest fun k => ans (k + 1)

theorem busAnswerAt_tail (s t : State) (h1 : t.busAnswers = s.busAnswers.tail)
    (h2 : t.exchanges = s.exchanges + 1) (k : Nat) : t.busAnswerAt k = s.busAnswerAt (k + 1) := by
  unfold State.busAnswerAt
  rw [h1, h2]
  cases s.busAnswers with
  | nil => simp only [List.tail_nil, List.getElem?_nil]; congr 1; omega
  | cons x xs => simp only [List.tail_cons, List.getElem?_cons_succ]; split <;> [rfl; (congr 1; omega)]

/-- Everything the data exchanges do: the code, the events, the image, the answers used up; nothing else but the
phase changes (41_transactions.md R121). -/
theorem dataExchanges_eq (store : Bool) (i : Nat) (outs : List Byte) (s : State) :
    (dataExchanges store i outs s).1 = exchangeCode outs s.busAnswerAt ∧
      (dataExchanges store i outs s).2 =
        { s with
          phase := (dataExchanges store i outs s).2.phase
          image := storedImage store i outs s.busAnswerAt s.image
          trace := s.trace ++ exchangeEvents outs s.busAnswerAt
          busAnswers := s.busAnswers.drop (exchangeEvents outs s.busAnswerAt).length
          exchanges := s.exchanges + (exchangeEvents outs s.busAnswerAt).length } := by
  induction outs generalizing i s with
  | nil => simp [dataExchanges, exchangeCode, exchangeEvents, storedImage]
  | cons out rest ih =>
    have hans : (busXchg out (enterPhase (.data i) s)).1 = s.busAnswerAt 0 := rfl
    unfold dataExchanges exchangeCode exchangeEvents storedImage
    simp only [hans]
    cases h0 : s.busAnswerAt 0 with
    | fail => simp [busXchg, enterPhase, State.busAnswerAt] at h0 ⊢; simp [exchangeEvent, h0]
    | byte b =>
      dsimp only
      generalize hu : (if store = true then
        (busXchg out (enterPhase (.data i) s)).2.setCell (BitVec.ofNat 4 i) b else
        (busXchg out (enterPhase (.data i) s)).2) = u
      have hu' : u = { s with
          phase := .data i
          image := if store then s.image.write (BitVec.ofNat 4 i).toNat b else s.image
          trace := s.trace ++ [.xchg out b]
          busAnswers := s.busAnswers.tail
          exchanges := s.exchanges + 1 } := by
        subst hu
        have h0' : (enterPhase (.data i) s).busAnswerAt 0 = .byte b := h0
        cases store <;> simp [busXchg, State.setCell, h0', exchangeEvent]
      have hnext : u.busAnswerAt = fun k => s.busAnswerAt (k + 1) := by
        funext k; exact busAnswerAt_tail s u (by rw [hu']) (by rw [hu']) k
      obtain ⟨hc, hs⟩ := ih (i + 1) u
      rw [hnext] at hc hs
      refine ⟨hc, ?_⟩
      rw [hs, hu']
      simp [Nat.add_assoc, Nat.add_comm 1]

/-- The events of a whole transaction. -/
def frameEvents (addr : Byte) (outs : List Byte) (ans : Nat → Config.BusAnswer) : List BusEvent :=
  [.acquire, .select] ++ exchangeEvents (addr :: outs) ans ++ [.deselect, .release]

/-- Everything a transaction does (41_transactions.md R121, R122, R123, R136): the code, the frame, the image, the
answers used up; it ends quiescent (10_state.md R48), and nothing else changes. -/
theorem transaction_eq (mode : TxMode) (outs : List Byte) (store : Bool) (s : State) :
    transaction mode outs store s =
      (exchangeCode (addressByte mode 0#4 :: outs) s.busAnswerAt,
        { s with
          image :=
            match s.busAnswerAt 0 with
            | .fail => s.image
            | .byte _ => storedImage store 0 outs (fun k => s.busAnswerAt (k + 1)) s.image
          csAsserted := false
          busHeld := false
          phase := .idle
          txn := none
          trace := s.trace ++ frameEvents (addressByte mode 0#4) outs s.busAnswerAt
          busAnswers :=
            s.busAnswers.drop (exchangeEvents (addressByte mode 0#4 :: outs) s.busAnswerAt).length
          exchanges :=
            s.exchanges + (exchangeEvents (addressByte mode 0#4 :: outs) s.busAnswerAt).length }) := by
  generalize hb : busSelect (busAcquire (beginTransaction mode outs.length s)) = b
  have hans : ∀ k, (enterPhase .addr b).busAnswerAt k = s.busAnswerAt k := by
    subst hb; intro k; rfl
  unfold transaction frameExchanges
  simp only [hb, busXchg]
  unfold exchangeCode frameEvents exchangeEvents
  simp only [hans]
  cases h0 : s.busAnswerAt 0 with
  | fail =>
    subst hb
    simp [cleanup, endTransaction, busRelease, busDeselect, enterPhase, busSelect, busAcquire,
      beginTransaction, exchangeEvent]
  | byte x =>
    generalize hu : ({ enterPhase .addr b with
        trace := (enterPhase .addr b).trace ++ [exchangeEvent (addressByte mode 0#4) (.byte x)]
        busAnswers := (enterPhase .addr b).busAnswers.tail
        exchanges := (enterPhase .addr b).exchanges + 1 } : State) = u
    have hnext : u.busAnswerAt = fun k => s.busAnswerAt (k + 1) := by
      funext k; exact busAnswerAt_tail s u (by subst hu hb; rfl) (by subst hu hb; rfl) k
    obtain ⟨hc, hs⟩ := dataExchanges_eq store 0 outs u
    rw [hnext] at hc hs
    simp only [hc, Prod.mk.injEq, true_and]
    rw [hs]
    subst hu hb
    simp [cleanup, endTransaction, busRelease, busDeselect, enterPhase, busSelect, busAcquire,
      beginTransaction, exchangeEvent, Nat.add_assoc, Nat.add_comm 1]

theorem wf_storedImage (store : Bool) (i : Nat) (outs : List Byte) (ans : Nat → Config.BusAnswer) {m : Memory}
    (h : m.wf = true) : (storedImage store i outs ans m).wf = true := by
  induction outs generalizing i ans m with
  | nil => exact h
  | cons out rest ih =>
    unfold storedImage
    split
    · exact h
    · refine ih _ _ ?_
      cases store
      · exact h
      · exact Memory.wf_write _ (BitVec.isLt _) h

/-- Without `store` the image does not change (41_transactions.md R133, R136). -/
theorem storedImage_not_store (i : Nat) (outs : List Byte) (ans : Nat → Config.BusAnswer) (m : Memory) :
    storedImage false i outs ans m = m := by
  induction outs generalizing i ans with
  | nil => rfl
  | cons out rest ih => unfold storedImage; split <;> simp_all

end Sys2Proof.Machine
end

