-- ==== Sys2Proof/Laws/Codec.lean ====
section
/-! SUPPORT. What the field accesses and the shared getters and setters can do, said once. -/

namespace Sys2Proof.Machine

theorem memRead_one (s : State) (a : CellAddr) (h : Byte) (h0 : s.cell a = some h) :
    memRead s a 1 = .ok h.toNat := by
  simp [memRead, readFrom, readCell_eq_ok.2 h0, concatBytes]

theorem memRead_two (s : State) (a : CellAddr) (h l : Byte) (h0 : s.cell a = some h)
    (h1 : s.cell (a + 1#4) = some l) : memRead s a 2 = .ok (h.toNat * 256 + l.toNat) := by
  simp [memRead, readFrom, readCell_eq_ok.2 h0, readCell_eq_ok.2 h1, concatBytes]

theorem memRead_three (s : State) (a : CellAddr) (h m l : Byte) (h0 : s.cell a = some h)
    (h1 : s.cell (a + 1#4) = some m) (h2 : s.cell (a + 1#4 + 1#4) = some l) :
    memRead s a 3 = .ok ((h.toNat * 256 + m.toNat) * 256 + l.toNat) := by
  simp [memRead, readFrom, readCell_eq_ok.2 h0, readCell_eq_ok.2 h1, readCell_eq_ok.2 h2, concatBytes]

theorem memWrite_one (s : State) (a : CellAddr) (v : Nat) :
    memWrite s a 1 v = s.setCell a (BitVec.ofNat 8 v) := by
  simp [memWrite, splitBytes, writeFrom]

theorem memWrite_two (s : State) (a : CellAddr) (v : Nat) :
    memWrite s a 2 v = (s.setCell a (BitVec.ofNat 8 (v / 256))).setCell (a + 1#4) (BitVec.ofNat 8 v) := by
  simp [memWrite, splitBytes, writeFrom]

/-- A raw read fails exactly as the read of its cells does. -/
theorem readRaw_eq_ok {s : State} {q : Quantity} {r : Int} :
    readRaw s q = .ok r ↔ ∃ w, memRead s q.firstCell q.cellCount = .ok w ∧ r = q.decode w := by
  unfold readRaw
  cases memRead s q.firstCell q.cellCount <;> simp [eq_comm]

/-- A raw write changes the image only. -/
theorem writeRaw_eq (s : State) (q : Quantity) (v : Int) :
    writeRaw s q v = { s with image := (writeRaw s q v).image } :=
  writeFrom_eq _ _ _

theorem wf_writeRaw {s : State} (q : Quantity) (v : Int) (h : s.image.wf = true) :
    (writeRaw s q v).image.wf = true :=
  wf_writeFrom _ _ h

/-- A raw getter responds with the raw value, or records the fault (42_codec_integer.md R159). -/
theorem getRaw_cases {q : Quantity} {s t : State} (h : getRaw q s = t) :
    (∃ a, readRaw s q = .error a ∧ t = { s with faultRecord := some (.uninitRead a) }) ∨
      (∃ r, readRaw s q = .ok r ∧ t = { s with responses := s.responses ++ [⟨0#3, BitVec.ofInt 32 r⟩] }) :=
  withRead_cases h

/-- A float getter responds with the converted value, or records the fault (43_codec_float.md R209). -/
theorem getFloat_cases {q : Quantity} {c : Quantity → Int → F32} {s t : State} (h : getFloat q c s = t) :
    (∃ a, readRaw s q = .error a ∧ t = { s with faultRecord := some (.uninitRead a) }) ∨
      (∃ r, readRaw s q = .ok r ∧ t = { s with responses := s.responses ++ [⟨0#3, (c q r).bits⟩] }) :=
  withRead_cases h

/-- A raw setter writes its cells and responds `OK` with 0 (42_codec_integer.md R179). -/
theorem setRaw_eq (q : Quantity) (v : Int) (s : State) :
    setRaw q v s =
      { s with image := (writeRaw s q v).image, responses := s.responses ++ [⟨0#3, 0#32⟩] } := by
  unfold setRaw respond
  rw [writeRaw_eq]; rfl

/-- A float setter is the raw setter of the integer it converts to, or `E_FPDOMAIN` (43_codec_float.md R229). -/
theorem setFloat_cases {q : Quantity} {c : Quantity → F32 → Option Int} {f : Word} {s t : State}
    (h : setFloat q c f s = t) :
    (c q (F32.ofBits f) = none ∧ t = { s with responses := s.responses ++ [⟨5#3, 0#32⟩] }) ∨
      (∃ n, c q (F32.ofBits f) = some n ∧ t = setRaw q n s) := by
  unfold setFloat at h
  split at h
  · next h0 => exact .inl ⟨h0, h.symm⟩
  · next n h0 => exact .inr ⟨n, h0, h.symm⟩

end Sys2Proof.Machine
end

