-- ==== Sys2Proof/Laws/Encoding.lean ====
section
/-! SUPPORT. The fields of an assembled command word (30_encoding.md R80). -/

namespace Sys2Proof

/-- Every bit of an assembled word. -/
theorem getLsbD_assemble (op : Byte) (a : CellAddr) (d : Word) (i : Nat) :
    (assemble op a d).getLsbD i =
      if i < 8 then op.getLsbD i
      else if i < 12 then a.getLsbD (i - 8)
      else if i < 16 then false
      else d.getLsbD (i - 16) := by
  change (d ++ 0#4 ++ a ++ op : BitVec (32 + 4 + 4 + 8)).getLsbD i = _
  rw [BitVec.getLsbD_append, BitVec.getLsbD_append, BitVec.getLsbD_append]
  split_ifs <;> first | rfl | omega | simp

@[simp] theorem opField_assemble (op : Byte) (a : CellAddr) (d : Word) : opField (assemble op a d) = op := by
  apply BitVec.eq_of_getLsbD_eq
  intro i hi
  simp only [opField, BitVec.getLsbD_extractLsb', getLsbD_assemble]
  simp [hi]

@[simp] theorem addrField_assemble (op : Byte) (a : CellAddr) (d : Word) :
    addrField (assemble op a d) = a := by
  apply BitVec.eq_of_getLsbD_eq
  intro i hi
  simp only [addrField, BitVec.getLsbD_extractLsb', getLsbD_assemble]
  rw [if_neg (by omega), if_pos (by omega)]
  simp [hi]

@[simp] theorem rsvField_assemble (op : Byte) (a : CellAddr) (d : Word) :
    rsvField (assemble op a d) = 0#4 := by
  apply BitVec.eq_of_getLsbD_eq
  intro i hi
  simp only [rsvField, BitVec.getLsbD_extractLsb', getLsbD_assemble]
  rw [if_neg (by omega), if_neg (by omega), if_pos (by omega)]
  simp

@[simp] theorem dataField_assemble (op : Byte) (a : CellAddr) (d : Word) :
    dataField (assemble op a d) = d := by
  apply BitVec.eq_of_getLsbD_eq
  intro i hi
  simp only [dataField, BitVec.getLsbD_extractLsb', getLsbD_assemble]
  rw [if_neg (by omega), if_neg (by omega), if_neg (by omega)]
  simp [hi]

/-- The bits 31:8 of `DATA`, which format AB keeps at 0. -/
theorem dataHigh_assemble (op : Byte) (a : CellAddr) (d : Word) :
    (assemble op a d).extractLsb' 24 24 = d.extractLsb' 8 24 := by
  apply BitVec.eq_of_getLsbD_eq
  intro i hi
  simp only [BitVec.getLsbD_extractLsb', getLsbD_assemble]
  rw [if_neg (by omega), if_neg (by omega), if_neg (by omega)]
  congr 2; omega

/-- The byte operand of an assembled word is the low byte of its data. -/
theorem byteField_assemble (op : Byte) (a : CellAddr) (d : Word) :
    byteField (assemble op a d) = d.extractLsb' 0 8 := by
  apply BitVec.eq_of_getLsbD_eq
  intro i hi
  simp only [byteField, BitVec.getLsbD_extractLsb', getLsbD_assemble]
  rw [if_neg (by omega), if_neg (by omega), if_neg (by omega)]
  congr 2; omega

/-- The format checks on an assembled word, field by field (30_encoding.md R81). -/
theorem wellFormedAs_assemble (fmt : Format) (op : Byte) (a : CellAddr) (d : Word) :
    CmdWord.wellFormedAs fmt (assemble op a d) =
      match fmt with
      | .n => a == 0#4 && d == 0#32
      | .a => d == 0#32
      | .ab => d.extractLsb' 8 24 == 0#24
      | .i => a == 0#4
      | .f => a == 0#4 := by
  have ha := addrField_assemble op a d
  have hr := rsvField_assemble op a d
  have hd := dataField_assemble op a d
  have hh := dataHigh_assemble op a d
  unfold addrField at ha
  unfold rsvField at hr
  unfold dataField at hd
  cases fmt <;> simp [CmdWord.wellFormedAs, ha, hr, hd, hh]

/-- The high bytes of a byte operand's data are 0. -/
theorem dataHigh_setWidth (b : Byte) : (b.setWidth 32).extractLsb' 8 24 = 0#24 := by
  apply BitVec.eq_of_getLsbD_eq
  intro i hi
  simp

end Sys2Proof
end

