-- ==== Sys2Proof/Laws/PerInstr.lean ====
section
/-! SUPPORT. For each command, its encoded word: the opcode is its own, and every field its format does not use is
0 (30_encoding.md R80, R81, R87). -/

namespace Sys2Proof.Laws.EncodedWord

/-- The word of `i` has the opcode of `i` and is well-formed in the format of `i`. -/
def Statement (i : Instr) : Prop :=
  opField (encode i) = i.opcode ∧ CmdWord.wellFormedAs i.format (encode i) = true

/-- A command assembled from its opcode has that opcode, whatever the other fields. -/
theorem ofFields {i : Instr} {op : Byte} {a : CellAddr} {d : Word} (h : encode i = assemble op a d)
    (hop : i.opcode = op) (hwf : CmdWord.wellFormedAs i.format (assemble op a d) = true) : Statement i :=
  ⟨by rw [h, opField_assemble, hop], by rw [h, hwf]⟩

theorem ofN {i : Instr} {op : Byte} (h : encode i = assemble op 0#4 0#32) (hop : i.opcode = op)
    (hf : i.format = .n) : Statement i :=
  ofFields h hop (by simp [hf, wellFormedAs_assemble])

theorem ofA {i : Instr} {op : Byte} {a : CellAddr} (h : encode i = assemble op a 0#32) (hop : i.opcode = op)
    (hf : i.format = .a) : Statement i :=
  ofFields h hop (by simp [hf, wellFormedAs_assemble])

theorem ofAB {i : Instr} {op : Byte} {a : CellAddr} {b : Byte} (h : encode i = assemble op a (b.setWidth 32))
    (hop : i.opcode = op) (hf : i.format = .ab) : Statement i :=
  ofFields h hop (by simp [hf, wellFormedAs_assemble, dataHigh_setWidth])

theorem ofI {i : Instr} {op : Byte} {v : Word} (h : encode i = assemble op 0#4 v) (hop : i.opcode = op)
    (hf : i.format = .i) : Statement i :=
  ofFields h hop (by simp [hf, wellFormedAs_assemble])

theorem ofF {i : Instr} {op : Byte} {f : Word} (h : encode i = assemble op 0#4 f) (hop : i.opcode = op)
    (hf : i.format = .f) : Statement i :=
  ofFields h hop (by simp [hf, wellFormedAs_assemble])

theorem init : Statement (.init) := ofN rfl rfl rfl

theorem refresh : Statement (.refresh) := ofN rfl rfl rfl

theorem commit : Statement (.commit) := ofN rfl rfl rfl

theorem rstdef : Statement (.rstdef) := ofN rfl rfl rfl

theorem rdreg (a : CellAddr) : Statement (.rdreg a) := ofA rfl rfl rfl

theorem wrreg (a : CellAddr) (b : Byte) : Statement (.wrreg a b) := ofAB rfl rfl rfl

theorem getLtc : Statement (.getLtc) := ofN rfl rfl rfl

theorem getCjt : Statement (.getCjt) := ofN rfl rfl rfl

theorem getLthft : Statement (.getLthft) := ofN rfl rfl rfl

theorem getLtlft : Statement (.getLtlft) := ofN rfl rfl rfl

theorem getCjhf : Statement (.getCjhf) := ofN rfl rfl rfl

theorem getCjlf : Statement (.getCjlf) := ofN rfl rfl rfl

theorem getCjto : Statement (.getCjto) := ofN rfl rfl rfl

theorem getAvg : Statement (.getAvg) := ofN rfl rfl rfl

theorem getTctype : Statement (.getTctype) := ofN rfl rfl rfl

theorem getFaults : Statement (.getFaults) := ofN rfl rfl rfl

theorem setCjt (v : Word) : Statement (.setCjt v) := ofI rfl rfl rfl

theorem setLthft (v : Word) : Statement (.setLthft v) := ofI rfl rfl rfl

theorem setLtlft (v : Word) : Statement (.setLtlft v) := ofI rfl rfl rfl

theorem setCjhf (v : Word) : Statement (.setCjhf v) := ofI rfl rfl rfl

theorem setCjlf (v : Word) : Statement (.setCjlf v) := ofI rfl rfl rfl

theorem setCjto (v : Word) : Statement (.setCjto v) := ofI rfl rfl rfl

theorem setAvg (v : Word) : Statement (.setAvg v) := ofI rfl rfl rfl

theorem setTctype (v : Word) : Statement (.setTctype v) := ofI rfl rfl rfl

theorem getcLtc : Statement (.getcLtc) := ofN rfl rfl rfl

theorem getcCjt : Statement (.getcCjt) := ofN rfl rfl rfl

theorem getcLthft : Statement (.getcLthft) := ofN rfl rfl rfl

theorem getcLtlft : Statement (.getcLtlft) := ofN rfl rfl rfl

theorem getcCjhf : Statement (.getcCjhf) := ofN rfl rfl rfl

theorem getcCjlf : Statement (.getcCjlf) := ofN rfl rfl rfl

theorem getcCjto : Statement (.getcCjto) := ofN rfl rfl rfl

theorem setcCjt (f : Word) : Statement (.setcCjt f) := ofF rfl rfl rfl

theorem setcLthft (f : Word) : Statement (.setcLthft f) := ofF rfl rfl rfl

theorem setcLtlft (f : Word) : Statement (.setcLtlft f) := ofF rfl rfl rfl

theorem setcCjhf (f : Word) : Statement (.setcCjhf f) := ofF rfl rfl rfl

theorem setcCjlf (f : Word) : Statement (.setcCjlf f) := ofF rfl rfl rfl

theorem setcCjto (f : Word) : Statement (.setcCjto f) := ofF rfl rfl rfl

theorem getfLtc : Statement (.getfLtc) := ofN rfl rfl rfl

theorem getfCjt : Statement (.getfCjt) := ofN rfl rfl rfl

theorem getfLthft : Statement (.getfLthft) := ofN rfl rfl rfl

theorem getfLtlft : Statement (.getfLtlft) := ofN rfl rfl rfl

theorem getfCjhf : Statement (.getfCjhf) := ofN rfl rfl rfl

theorem getfCjlf : Statement (.getfCjlf) := ofN rfl rfl rfl

theorem getfCjto : Statement (.getfCjto) := ofN rfl rfl rfl

theorem setfCjt (f : Word) : Statement (.setfCjt f) := ofF rfl rfl rfl

theorem setfLthft (f : Word) : Statement (.setfLthft f) := ofF rfl rfl rfl

theorem setfLtlft (f : Word) : Statement (.setfLtlft f) := ofF rfl rfl rfl

theorem setfCjhf (f : Word) : Statement (.setfCjhf f) := ofF rfl rfl rfl

theorem setfCjlf (f : Word) : Statement (.setfCjlf f) := ofF rfl rfl rfl

theorem setfCjto (f : Word) : Statement (.setfCjto f) := ofF rfl rfl rfl

end Sys2Proof.Laws.EncodedWord
end

