-- ==== Sys2Proof/Laws/Step.lean ====
section
/-! SUPPORT. What one step can do, said once. -/

namespace Sys2Proof.Machine

/-- A step that answers a next state waits, runs a decoded command, or answers `E_ILLEGAL`; the fault record was
empty. -/
theorem step_cases {s t : State} (h : step s = .next t) :
    s.faultRecord = none ∧
      ((s.commands = [] ∧ t = s) ∨
        (∃ w rest i, s.commands = w :: rest ∧ decode w = .ok i ∧
          exec i { s with commands := rest } = .next t) ∨
        (∃ w rest e, s.commands = w :: rest ∧ decode w = .error e ∧
          t = { s with commands := rest, responses := s.responses ++ [⟨1#3, 0#32⟩] })) := by
  unfold step at h
  split at h
  · cases h
  · next hf =>
    refine ⟨hf, ?_⟩
    unfold takeCommand at h
    cases hc : s.commands with
    | nil => rw [hc] at h; cases h; exact .inl ⟨rfl, rfl⟩
    | cons w rest =>
      rw [hc] at h
      dsimp only at h
      cases hd : decode w with
      | ok i => rw [hd] at h; exact .inr (.inl ⟨w, rest, i, rfl, hd, h⟩)
      | error e => rw [hd] at h; cases h; exact .inr (.inr ⟨w, rest, e, rfl, hd, rfl⟩)

end Sys2Proof.Machine
end

