-- ==== Sys2Proof/Machine/Assembler.lean ====
section
/-! DEFINITION. The command syntax of 30_encoding.md R98: a line of text to its tokens, its tokens to the command
word, and a word to twelve hex digits. There are no pseudo-instructions (R99). No meaning of a command uses this file
(log 17). -/

namespace Sys2Proof.Machine

/-- An operand as written (30_encoding.md R98). -/
inductive Literal where
  /-- A decimal integer, optionally signed. -/
  | dec (v : Int)
  /-- A `0x` integer. -/
  | hex (n : Nat)
  /-- A decimal floating literal, as its sign and the quotient it stands for. -/
  | float (neg : Bool) (num den : Nat)
  /-- A pattern given by `0f` and eight hex digits. -/
  | floatBits (p : Word)
deriving DecidableEq, Repr

/-- An unsigned literal below a bound: a cell address or a byte (30_encoding.md R98). R98 names an optional sign for
format I only. DESIGN CHOICE: the value alone is tested here, so a signed decimal whose value is in range is taken
(`RDREG +3`, `WRREG 0, -0`) and one below 0 is refused (log 17). -/
def Literal.unsigned (bound : Nat) (l : Literal) : Option Nat :=
  match l with
  | .dec v => if 0 ≤ v ∧ v < bound then some v.toNat else none
  | .hex n => if n < bound then some n else none
  | .float _ _ _ => none
  | .floatBits _ => none

/-- A format I operand: in [-2^31, 2^31), where `0x80000000` and above stand for their two's-complement value
(30_encoding.md R98). -/
def Literal.signed (l : Literal) : Option Word :=
  match l with
  | .dec v => if -2147483648 ≤ v ∧ v < 2147483648 then some (BitVec.ofInt 32 v) else none
  | .hex n => if n < 4294967296 then some (BitVec.ofNat 32 n) else none
  | .float _ _ _ => none
  | .floatBits _ => none

/-- A format F operand, rounded with `rne32` or given as a pattern (30_encoding.md R98). -/
def Literal.binary32 (l : Literal) : Option Word :=
  match l with
  | .dec _ => none
  | .hex _ => none
  | .float neg num den => if den = 0 then none else some (rne32 neg (num * unitsPerOne) den).bits
  | .floatBits p => some p

/-- The fields `ADDR`, byte and `DATA` that a format's operands give; none where they do not fit the format. -/
def operandFields (fmt : Format) (ops : List Literal) : Option (CellAddr × Byte × Word) :=
  match fmt, ops with
  | .n, [] => some (0#4, 0#8, 0#32)
  | .a, [x] => (x.unsigned 16).map fun a => (BitVec.ofNat 4 a, 0#8, 0#32)
  | .ab, [x, y] =>
    match x.unsigned 16, y.unsigned 256 with
    | some a, some b => some (BitVec.ofNat 4 a, BitVec.ofNat 8 b, 0#32)
    | _, _ => none
  | .i, [x] => x.signed.map fun v => (0#4, 0#8, v)
  | .f, [x] => x.binary32.map fun f => (0#4, 0#8, f)
  | _, _ => none

/-- The word of one line of assembly (30_encoding.md R98): the row whose mnemonic is written, upper case as the
table has it, with its operands. -/
def assembleLine (mnemonic : String) (ops : List Literal) : Option CmdWord :=
  (List.range 256).findSome? fun op =>
    match rowOf (BitVec.ofNat 8 op) 0#4 0#8 0#32 with
    | none => none
    | some row =>
      if row.mnemonic = mnemonic then
        match operandFields row.format ops with
        | none => none
        | some (a, b, d) => (rowOf (BitVec.ofNat 8 op) a b d).map encode
      else none

/-- The value of a decimal digit. -/
def decDigit (c : Char) : Option Nat := if '0' ≤ c ∧ c ≤ '9' then some (c.toNat - 48) else none

/-- The value of a hex digit. -/
def hexDigitValue (c : Char) : Option Nat :=
  if '0' ≤ c ∧ c ≤ '9' then some (c.toNat - 48)
  else if 'A' ≤ c ∧ c ≤ 'F' then some (c.toNat - 55)
  else if 'a' ≤ c ∧ c ≤ 'f' then some (c.toNat - 87)
  else none

/-- The digits from an accumulator on; none if a character is no digit. -/
def numberFrom (digit : Char → Option Nat) (base acc : Nat) (cs : List Char) : Option Nat :=
  match cs with
  | [] => some acc
  | c :: rest =>
    match digit c with
    | none => none
    | some d => numberFrom digit base (acc * base + d) rest

/-- A number of at least one digit. -/
def number (digit : Char → Option Nat) (base : Nat) (cs : List Char) : Option Nat :=
  match cs with
  | [] => none
  | c :: rest => numberFrom digit base 0 (c :: rest)

/-- The text before the first `sep`, and the text after it if there is one. -/
def splitFirst (sep : Char) (cs : List Char) : List Char × Option (List Char) :=
  match cs with
  | [] => ([], none)
  | c :: rest =>
    if c = sep then ([], some rest)
    else
      let r := splitFirst sep rest
      (c :: r.1, r.2)

/-- An optional sign: whether it is a minus, and the text after it. DESIGN CHOICE: it may stand before every decimal
literal, of whatever format, and before no `0x` or `0f` one (log 17). -/
def splitSign (cs : List Char) : Bool × List Char :=
  match cs with
  | '-' :: rest => (true, rest)
  | '+' :: rest => (false, rest)
  | rest => (false, rest)

/-- A decimal literal, an integer or, with a point, a floating one (30_encoding.md R98; log 17). -/
def decimalLiteral (cs : List Char) : Option Literal :=
  let (neg, body) := splitSign cs
  match splitFirst '.' body with
  | (int, none) => (number decDigit 10 int).map fun n => .dec (if neg then -(n : Int) else n)
  | (int, some frac) =>
    match number decDigit 10 int, number decDigit 10 frac with
    | some i, some f => some (.float neg (i * 10 ^ frac.length + f) (10 ^ frac.length))
    | _, _ => none

/-- An operand's text: `0x` and hex digits, `0f` and eight of them, or a decimal literal (30_encoding.md R98). -/
def parseLiteral (cs : List Char) : Option Literal :=
  match cs with
  | '0' :: 'x' :: rest => (number hexDigitValue 16 rest).map .hex
  | '0' :: 'f' :: rest =>
    if rest.length = 8 then (number hexDigitValue 16 rest).map fun n => .floatBits (BitVec.ofNat 32 n) else none
  | _ => decimalLiteral cs

/-- Whether a character separates words. -/
def isBlank (c : Char) : Bool := c == ' ' || c == '\t'

/-- The text without the blanks at its ends. -/
def trimBlanks (cs : List Char) : List Char := ((cs.dropWhile isBlank).reverse.dropWhile isBlank).reverse

/-- The operands of a line: none, or one or two with a comma between (30_encoding.md R98). -/
def parseOperands (cs : List Char) : Option (List Literal) :=
  match trimBlanks cs with
  | [] => some []
  | text =>
    match splitFirst ',' text with
    | (x, none) => (parseLiteral x).map fun l => [l]
    | (x, some y) =>
      match parseLiteral (trimBlanks x), parseLiteral (trimBlanks y) with
      | some l, some m => some [l, m]
      | _, _ => none

/-- The word of one line of text (30_encoding.md R98). -/
def assembleText (line : List Char) : Option CmdWord :=
  let text := trimBlanks line
  match parseOperands (text.dropWhile fun c => !isBlank c) with
  | none => none
  | some ops => assembleLine (String.ofList (text.takeWhile fun c => !isBlank c)) ops

/-- One hex digit. -/
def hexDigit (d : BitVec 4) : Char :=
  if d.toNat < 10 then Char.ofNat (48 + d.toNat) else Char.ofNat (55 + d.toNat)

/-- A word printed as 12 hex digits, `w[47:0]` (30_encoding.md R98). -/
def hexDigits (w : CmdWord) : List Char :=
  (List.range 12).map fun k => hexDigit (w.extractLsb' (4 * (11 - k)) 4)

end Sys2Proof.Machine
end

