-- ==== Sys2Proof/Tests/Slice0.lean ====
section
/-! SUPPORT. Tests, each a named theorem on one small step, and one witness for each obligation with hypotheses.
Expected results are those of spec/95_test_vectors.md (the section or row is named) or of the rule cited; a word
written out is taken from 30_encoding.md R80 to R87. -/


namespace Sys2Proof.Tests

set_option Elab.async false

open Sys2Proof Sys2Proof.Machine

/-! Helpers -/

/-- `FACTORY_DEFAULTS` in the image (10_state.md R52). -/
def defaultsImage : Memory :=
  [(0, 0x00#8), (1, 0x03#8), (2, 0xFF#8), (3, 0x7F#8), (4, 0xC0#8), (5, 0x7F#8), (6, 0xFF#8), (7, 0x80#8),
    (8, 0x00#8), (9, 0x00#8), (10, 0x00#8), (11, 0x00#8), (12, 0x00#8), (13, 0x00#8), (14, 0x00#8), (15, 0x00#8)]

/-- INIT done, this image, these answers to come. -/
def ready (image : Memory) (answers : List Config.BusAnswer) : State :=
  { State.reset with
    image := image
    initialized := true
    csConfigured := true
    busAnswers := answers }

/-- The defaults with one to three cells replaced. -/
def holding (cells : List (CellAddr × Byte)) : State :=
  cells.foldl (fun s p => s.setCell p.1 p.2) (ready defaultsImage [])

/-- Successful exchanges that receive these bytes. -/
def received (bs : List Byte) : List Config.BusAnswer := bs.map Config.BusAnswer.byte

/-- The next state of a command, if it answers one. -/
def after (i : Instr) (s : State) : Option State :=
  match exec i s with
  | .next t => some t
  | .fault _ => none
  | .refused _ => none

/-- The next state of a word on the host's port, if it answers one. -/
def stepped (w : CmdWord) (s : State) : Option State :=
  match step (issueNext s w) with
  | .next t => some t
  | .fault _ => none
  | .refused _ => none

/-- What a step answered, or the fault it recorded. -/
def answered (w : CmdWord) (s : State) : Option (List Response × Option Fault) :=
  (stepped w s).map fun t => (t.responses, t.faultRecord)

/-- The cells from `a` on after a step, and its answer. -/
def stored (w : CmdWord) (s : State) (cells : List CellAddr) : Option (List Response × List (Option Byte)) :=
  (stepped w s).map fun t => (t.responses, cells.map t.cell)

/-! WellFormed: an ill-formed term for each check, which the check refuses -/

theorem test_wellFormed_addr_must_be_zero : CmdWord.wellFormedAs .n 0x000000000101#48 = false := by decide

theorem test_wellFormed_rsv_must_be_zero :
    CmdWord.wellFormedAs .a 0x000000001010#48 = false ∧ CmdWord.wellFormedAs .i 0x000000001031#48 = false := by
  decide

theorem test_wellFormed_data_must_be_zero :
    CmdWord.wellFormedAs .n 0x800000000020#48 = false ∧ CmdWord.wellFormedAs .a 0x000000010010#48 = false := by
  decide

theorem test_wellFormed_data_high_must_be_zero : CmdWord.wellFormedAs .ab 0x000001000011#48 = false := by decide

theorem test_wellFormed_float_addr_must_be_zero : CmdWord.wellFormedAs .f 0x7FC000000151#48 = false := by decide

theorem test_wellFormed_accepts :
    CmdWord.wellFormedAs .ab 0x000000FF0A11#48 = true ∧ CmdWord.wellFormedAs .f 0x7FC000000051#48 = true := by
  decide

theorem test_params_wellFormed : Config.defaults.wellFormed = true := by decide

theorem test_params_cjhf_refused :
    ({ Config.defaults with factoryDefaults := Config.defaults.factoryDefaults.set 3 0x7E#8 } :
      Config.Params).wellFormed = false := by
  decide

theorem test_params_cjlf_refused :
    ({ Config.defaults with factoryDefaults := Config.defaults.factoryDefaults.set 4 0xC1#8 } :
      Config.Params).wellFormed = false := by
  decide

/-! Decoding: every constructor's word, written out from 30_encoding.md R80, R81, R87 -/

theorem test_decode_transactions :
    decode 0x000000000001#48 = .ok .init ∧
      decode 0x000000000002#48 = .ok .refresh ∧
      decode 0x000000000003#48 = .ok .commit ∧
      decode 0x000000000004#48 = .ok .rstdef :=
  ⟨rfl, rfl, rfl, rfl⟩

theorem test_decode_register_image :
    decode 0x000000000F10#48 = .ok (.rdreg 15#4) ∧
      decode 0x000000FF0A11#48 = .ok (.wrreg 10#4 0xFF#8) :=
  ⟨rfl, rfl⟩

theorem test_decode_getters :
    decode 0x000000000020#48 = .ok .getLtc ∧
      decode 0x000000000021#48 = .ok .getCjt ∧
      decode 0x000000000022#48 = .ok .getLthft ∧
      decode 0x000000000023#48 = .ok .getLtlft ∧
      decode 0x000000000024#48 = .ok .getCjhf ∧
      decode 0x000000000025#48 = .ok .getCjlf ∧
      decode 0x000000000026#48 = .ok .getCjto ∧
      decode 0x000000000027#48 = .ok .getAvg ∧
      decode 0x000000000028#48 = .ok .getTctype ∧
      decode 0x000000000029#48 = .ok .getFaults :=
  ⟨rfl, rfl, rfl, rfl, rfl, rfl, rfl, rfl, rfl, rfl⟩

theorem test_decode_setters :
    decode 0x810203050031#48 = .ok (.setCjt 0x81020305#32) ∧
      decode 0x820406090032#48 = .ok (.setLthft 0x82040609#32) ∧
      decode 0x8306090D0033#48 = .ok (.setLtlft 0x8306090D#32) ∧
      decode 0x84080C110034#48 = .ok (.setCjhf 0x84080C11#32) ∧
      decode 0x850A0F150035#48 = .ok (.setCjlf 0x850A0F15#32) ∧
      decode 0x860C12190036#48 = .ok (.setCjto 0x860C1219#32) ∧
      decode 0x870E151D0037#48 = .ok (.setAvg 0x870E151D#32) ∧
      decode 0x881018210038#48 = .ok (.setTctype 0x88101821#32) :=
  ⟨rfl, rfl, rfl, rfl, rfl, rfl, rfl, rfl⟩

theorem test_decode_celsius_getters :
    decode 0x000000000040#48 = .ok .getcLtc ∧
      decode 0x000000000041#48 = .ok .getcCjt ∧
      decode 0x000000000042#48 = .ok .getcLthft ∧
      decode 0x000000000043#48 = .ok .getcLtlft ∧
      decode 0x000000000044#48 = .ok .getcCjhf ∧
      decode 0x000000000045#48 = .ok .getcCjlf ∧
      decode 0x000000000046#48 = .ok .getcCjto :=
  ⟨rfl, rfl, rfl, rfl, rfl, rfl, rfl⟩

theorem test_decode_celsius_setters :
    decode 0x89121B250051#48 = .ok (.setcCjt 0x89121B25#32) ∧
      decode 0x8A141E290052#48 = .ok (.setcLthft 0x8A141E29#32) ∧
      decode 0x8B16212D0053#48 = .ok (.setcLtlft 0x8B16212D#32) ∧
      decode 0x8C1824310054#48 = .ok (.setcCjhf 0x8C182431#32) ∧
      decode 0x8D1A27350055#48 = .ok (.setcCjlf 0x8D1A2735#32) ∧
      decode 0x8E1C2A390056#48 = .ok (.setcCjto 0x8E1C2A39#32) :=
  ⟨rfl, rfl, rfl, rfl, rfl, rfl⟩

theorem test_decode_fahrenheit_getters :
    decode 0x000000000060#48 = .ok .getfLtc ∧
      decode 0x000000000061#48 = .ok .getfCjt ∧
      decode 0x000000000062#48 = .ok .getfLthft ∧
      decode 0x000000000063#48 = .ok .getfLtlft ∧
      decode 0x000000000064#48 = .ok .getfCjhf ∧
      decode 0x000000000065#48 = .ok .getfCjlf ∧
      decode 0x000000000066#48 = .ok .getfCjto :=
  ⟨rfl, rfl, rfl, rfl, rfl, rfl, rfl⟩

theorem test_decode_fahrenheit_setters :
    decode 0x8F1E2D3D0071#48 = .ok (.setfCjt 0x8F1E2D3D#32) ∧
      decode 0x902030410072#48 = .ok (.setfLthft 0x90203041#32) ∧
      decode 0x912233450073#48 = .ok (.setfLtlft 0x91223345#32) ∧
      decode 0x922436490074#48 = .ok (.setfCjhf 0x92243649#32) ∧
      decode 0x9326394D0075#48 = .ok (.setfCjlf 0x9326394D#32) ∧
      decode 0x94283C510076#48 = .ok (.setfCjto 0x94283C51#32) :=
  ⟨rfl, rfl, rfl, rfl, rfl, rfl⟩

/-- The illegal words of 95_test_vectors.md L2.1 and L2.8. -/
theorem test_decode_rejects :
    decode 0x000000000000#48 = .error (.unknownOpcode 0x00#8) ∧
      decode 0x000000000100#48 = .error (.unknownOpcode 0x00#8) ∧
      decode 0x000000000030#48 = .error (.unknownOpcode 0x30#8) ∧
      decode 0x000000000050#48 = .error (.unknownOpcode 0x50#8) ∧
      decode 0x000000000070#48 = .error (.unknownOpcode 0x70#8) ∧
      decode 0x0000000000FF#48 = .error (.unknownOpcode 0xFF#8) ∧
      decode 0x000000010001#48 = .error (.mustBeZero 0x01#8) ∧
      decode 0x000000001010#48 = .error (.mustBeZero 0x10#8) ∧
      decode 0x000001000011#48 = .error (.mustBeZero 0x11#8) ∧
      decode 0x000000000137#48 = .error (.mustBeZero 0x37#8) ∧
      decode 0x800000000020#48 = .error (.mustBeZero 0x20#8) :=
  ⟨rfl, rfl, rfl, rfl, rfl, rfl, rfl, rfl, rfl, rfl, rfl⟩

theorem test_decodeTableWord :
    decodeTableWord 48 0x000000640311 = some (.wrreg 3#4 0x64#8) ∧ decodeTableWord 8 0x29 = some .getFaults ∧
      decodeTableWord 48 0x30 = none :=
  ⟨rfl, rfl, rfl⟩

/-- 30_encoding.md R98: assembly lines of 95_test_vectors.md, and a word as hex digits. -/
theorem test_assembleLine :
    assembleLine "WRREG" [.dec 3, .hex 0x64] = some 0x000000640311#48 ∧
      assembleLine "SET_CJT" [.dec (-1)] = some 0xFFFFFFFF0031#48 ∧
      assembleLine "SETC_CJT" [.float false 105 4] = some 0x41D200000051#48 ∧
      assembleLine "SET_LTC" [.dec 0] = none ∧ assembleLine "RDREG" [.dec 16] = none := by
  decide +kernel

/-- Lines of the programs of 95_test_vectors.md L3, and lines that R98 refuses. -/
theorem test_assembleText :
    assembleText "WRREG 0, 0x08".toList = some 0x000000080011#48 ∧
      assembleText "  REFRESH ".toList = some 0x000000000002#48 ∧
      assembleText "SETC_CJTO -0.5".toList = some 0xBF0000000056#48 ∧
      assembleText "SETC_LTHFT 1000.0".toList = some 0x447A00000052#48 ∧
      assembleText "SETC_CJHF 0f7F800000".toList = some 0x7F8000000054#48 ∧
      assembleText "SET_AVG -1".toList = some 0xFFFFFFFF0037#48 ∧
      assembleText "WRREG 0, 256".toList = none ∧ assembleText "RDREG 16".toList = none ∧
      assembleText "refresh".toList = none ∧ assembleText "REFRESH 0".toList = none := by
  decide +kernel

theorem test_hexDigits : hexDigits 0x41D200000051#48 = "41D200000051".toList := by decide +kernel

/-! Register Image commands and the step (95_test_vectors.md L2.1, L2.2, L2.8) -/

/-- L2.2 row 8. -/
theorem test_rdreg :
    answered 0x000000000410#48 (ready defaultsImage []) = some ([⟨0#3, 0xC0#32⟩], none) := by decide +kernel

/-- L2.2 row 1. -/
theorem test_rdreg_undefined :
    answered 0x000000000010#48 State.reset = some ([], some (.uninitRead 0#4)) := by decide +kernel

/-- L2.2 row 2. -/
theorem test_wrreg :
    stored 0x000000640311#48 State.reset [2#4, 3#4, 4#4] = some ([⟨0#3, 0#32⟩], [none, some 0x64#8, none]) := by decide +kernel

/-- L2.2 row 4. -/
theorem test_wrreg_readonly :
    stored 0x000000010C11#48 State.reset [12#4] = some ([⟨2#3, 0#32⟩], [none]) := by decide +kernel

/-- L2.2 row 6. -/
theorem test_rstdef :
    (stepped 0x000000000004#48 State.reset).map (fun t => (t.image, t.responses, t.trace)) =
      some (defaultsImage, [⟨0#3, 0#32⟩], []) := by decide +kernel

/-- L2.8 row 1. -/
theorem test_illegal_word :
    answered 0x000001000C11#48 State.reset = some ([⟨1#3, 0#32⟩], none) := by decide +kernel

/-- After a recorded fault no later command runs (60_exceptions.md R306). -/
theorem test_faulted_run_ends :
    step { State.reset with faultRecord := some (.uninitRead 0#4), commands := [0x000000000004#48] } =
      .fault (.uninitRead 0#4) :=
  rfl

/-- L3 P4, step 8: RSTDEF issued after the fault is not run, and the record stays (60_exceptions.md R306). -/
theorem test_word_after_fault_not_run :
    step ((recordFault (.uninitRead 3#4) State.reset).withFetchWord 48 0x000000000004) = .fault (.uninitRead 3#4) ∧
      ((recordFault (.uninitRead 3#4) State.reset).withFetchWord 48 0x000000000004).faultRecord =
        some (.uninitRead 3#4) :=
  ⟨rfl, rfl⟩

/-- L3 P4, step 7: GET_CJHF with cell 3 undefined. -/
theorem test_get_cjhf_undefined : answered 0x000000000024#48 State.reset = some ([], some (.uninitRead 3#4)) := by
  decide +kernel

theorem test_withFetchWord_runs :
    step (State.reset.withFetchWord 48 0x000000640311) = exec (.wrreg 3#4 0x64#8) State.reset := rfl

/-! Transactions (95_test_vectors.md L2.3) -/

/-- What the device answers to the data exchanges in L2.3.13. -/
def deviceBytes : List Byte :=
  [0x00#8, 0x03#8, 0xFF#8, 0x7F#8, 0xC0#8, 0x7F#8, 0xFF#8, 0x80#8, 0x00#8, 0x00#8, 0x19#8, 0x40#8, 0x01#8,
    0x90#8, 0x00#8, 0x81#8]

/-- L2.3.3. -/
theorem test_init :
    (stepped 0x000000000001#48
        { State.reset with busAnswers := received (0xEE#8 :: deviceBytes) }).map
      (fun t => (t.responses, (List.range 16).map t.image.read, t.initialized, t.csAsserted, t.busHeld)) =
      some ([⟨0#3, 0#32⟩], deviceBytes.map some, true, false, false) := by
  decide +kernel

/-- L2.3.13. -/
theorem test_refresh :
    (stepped 0x000000000002#48 (ready defaultsImage (received (0x00#8 :: deviceBytes)))).map
      (fun t => (t.responses, (List.range 16).map t.image.read, t.trace)) =
      some ([⟨0#3, 0x81#32⟩], deviceBytes.map some,
        [.acquire, .select, .xchg 0x00#8 0x00#8] ++ deviceBytes.map (BusEvent.xchg 0x00#8) ++
          [.deselect, .release]) := by
  decide +kernel

/-- L2.3.10. -/
theorem test_refresh_fails :
    (stepped 0x000000000002#48
        (ready defaultsImage (received [0x00#8, 0xA0#8, 0xA1#8] ++ [.fail]))).map
      (fun t => (t.responses, t.cell 1#4, t.cell 2#4, t.trace)) =
      some ([⟨4#3, 0#32⟩], some 0xA1#8, some 0xFF#8,
        [.acquire, .select, .xchg 0x00#8 0x00#8, .xchg 0x00#8 0xA0#8, .xchg 0x00#8 0xA1#8, .xchgFail 0x00#8,
          .deselect, .release]) := by
  decide +kernel

/-- L2.3.5: the first twelve cells are sent where CJ is 1. -/
theorem test_commit :
    (stepped 0x000000000003#48
        { holding [(0#4, 0x08#8), (10#4, 0x19#8), (11#4, 0x40#8)] with
          busAnswers := received (List.replicate 13 0x00#8) }).map
      (fun t => (t.responses, t.trace.filterMap BusEvent.sent)) =
      some ([⟨0#3, 0#32⟩], [0x80#8, 0x08#8, 0x03#8, 0xFF#8, 0x7F#8, 0xC0#8, 0x7F#8, 0xFF#8, 0x80#8, 0x00#8, 0x00#8,
        0x19#8, 0x40#8]) := by
  decide +kernel

/-- L2.3.12. -/
theorem test_commit_fails :
    (stepped 0x000000000003#48 (ready defaultsImage (received [0x00#8, 0x00#8, 0x00#8] ++ [.fail]))).map
      (fun t => (t.responses, t.image, t.trace)) =
      some ([⟨4#3, 0#32⟩], defaultsImage,
        [.acquire, .select, .xchg 0x80#8 0x00#8, .xchg 0x00#8 0x00#8, .xchg 0x03#8 0x00#8, .xchgFail 0xFF#8,
          .deselect, .release]) := by
  decide +kernel

/-- L2.3.1, L2.3.2: before INIT. -/
theorem test_transactions_need_init :
    answered 0x000000000002#48 State.reset = some ([⟨3#3, 0#32⟩], none) ∧
      answered 0x000000000003#48 State.reset = some ([⟨3#3, 0#32⟩], none) := by
  decide +kernel

/-! Integer getters (95_test_vectors.md L2.4) -/

/-- Row 9. -/
theorem test_get_ltc :
    answered 0x000000000020#48 (holding [(12#4, 0xFF#8), (13#4, 0xFF#8), (14#4, 0x1F#8)]) =
      some ([⟨0#3, 0xFFFFFFF8#32⟩], none) := by decide +kernel

/-- Row 5. -/
theorem test_get_ltc_max :
    answered 0x000000000020#48 (holding [(12#4, 0x7F#8), (13#4, 0xFF#8), (14#4, 0xFF#8)]) =
      some ([⟨0#3, 0x0003FFFF#32⟩], none) := by decide +kernel

/-- Row 17. -/
theorem test_get_cjt :
    answered 0x000000000021#48 (holding [(10#4, 0xFF#8), (11#4, 0xFF#8)]) =
      some ([⟨0#3, 0xFFFFFFFF#32⟩], none) := by decide +kernel

/-- Row 12. -/
theorem test_get_cjt_positive :
    answered 0x000000000021#48 (holding [(10#4, 0x19#8), (11#4, 0x40#8)]) =
      some ([⟨0#3, 0x00000650#32⟩], none) := by decide +kernel

/-- Row 22. -/
theorem test_get_lthft :
    answered 0x000000000022#48 (holding [(5#4, 0x01#8), (6#4, 0x90#8)]) =
      some ([⟨0#3, 0x00000190#32⟩], none) := by decide +kernel

/-- Row 24. -/
theorem test_get_ltlft :
    answered 0x000000000023#48 (holding [(7#4, 0xFC#8), (8#4, 0x00#8)]) =
      some ([⟨0#3, 0xFFFFFC00#32⟩], none) := by decide +kernel

/-- Row 26. -/
theorem test_get_cjhf :
    answered 0x000000000024#48 (holding [(3#4, 0x80#8)]) =
      some ([⟨0#3, 0xFFFFFF80#32⟩], none) := by decide +kernel

/-- Row 27. -/
theorem test_get_cjlf :
    answered 0x000000000025#48 (holding [(4#4, 0xC0#8)]) =
      some ([⟨0#3, 0xFFFFFFC0#32⟩], none) := by decide +kernel

/-- Row 29. -/
theorem test_get_cjto :
    answered 0x000000000026#48 (holding [(9#4, 0xF8#8)]) =
      some ([⟨0#3, 0xFFFFFFF8#32⟩], none) := by decide +kernel

/-- Row 33. -/
theorem test_get_avg :
    answered 0x000000000027#48 (holding [(1#4, 0x43#8)]) =
      some ([⟨0#3, 0x00000004#32⟩], none) := by decide +kernel

/-- Row 35. -/
theorem test_get_tctype :
    answered 0x000000000028#48 (holding [(1#4, 0x43#8)]) =
      some ([⟨0#3, 0x00000003#32⟩], none) := by decide +kernel

/-- Row 37. -/
theorem test_get_faults :
    answered 0x000000000029#48 (holding [(15#4, 0x81#8)]) =
      some ([⟨0#3, 0x00000081#32⟩], none) := by decide +kernel

/-- Row 37: CJRANGE and OPEN. -/
theorem test_status_flags :
    (holding [(15#4, 0x81#8)]).flags = some ⟨true, false, false, false, false, false, false, true⟩ := by decide +kernel

/-! Integer setters (95_test_vectors.md L2.5) -/

/-- Row 1. -/
theorem test_set_cjt :
    stored 0x000006500031#48 (ready defaultsImage []) [10#4, 11#4] =
      some ([⟨0#3, 0#32⟩], [some 0x19#8, some 0x40#8]) := by decide +kernel

/-- Row 6. -/
theorem test_set_cjt_narrows :
    stored 0x7FFFFFFF0031#48 (ready defaultsImage []) [10#4, 11#4] =
      some ([⟨0#3, 0#32⟩], [some 0xFF#8, some 0xFC#8]) := by decide +kernel

/-- Row 9. -/
theorem test_set_lthft :
    stored 0xFFFF7FFF0032#48 (ready defaultsImage []) [5#4, 6#4] =
      some ([⟨0#3, 0#32⟩], [some 0x7F#8, some 0xFF#8]) := by decide +kernel

/-- Row 11. -/
theorem test_set_ltlft :
    stored 0x000123450033#48 (ready defaultsImage []) [7#4, 8#4] =
      some ([⟨0#3, 0#32⟩], [some 0x23#8, some 0x45#8]) := by decide +kernel

/-- Row 14. -/
theorem test_set_cjhf :
    stored 0xFFFFFF7F0034#48 (ready defaultsImage []) [3#4] =
      some ([⟨0#3, 0#32⟩], [some 0x7F#8]) := by decide +kernel

/-- Row 16. -/
theorem test_set_cjlf :
    stored 0x000000FF0035#48 (ready defaultsImage []) [4#4] =
      some ([⟨0#3, 0#32⟩], [some 0xFF#8]) := by decide +kernel

/-- Row 17. -/
theorem test_set_cjto :
    stored 0xFFFFFFF80036#48 (ready defaultsImage []) [9#4] =
      some ([⟨0#3, 0#32⟩], [some 0xF8#8]) := by decide +kernel

/-- Row 20. -/
theorem test_set_avg :
    stored 0x000000130037#48 (ready defaultsImage []) [1#4] =
      some ([⟨0#3, 0#32⟩], [some 0x33#8]) := by decide +kernel

/-- Row 22. -/
theorem test_set_tctype :
    stored 0x000000070038#48 (ready defaultsImage []) [1#4] =
      some ([⟨0#3, 0#32⟩], [some 0x07#8]) := by decide +kernel

/-! Float getters (95_test_vectors.md L2.6) -/

/-- Row 4. -/
theorem test_getc_ltc :
    answered 0x000000000040#48 (holding [(12#4, 0xFF#8), (13#4, 0xFF#8), (14#4, 0xE0#8)]) =
      some ([⟨0#3, 0xBC000000#32⟩], none) := by decide +kernel

/-- Row 4. -/
theorem test_getf_ltc :
    answered 0x000000000060#48 (holding [(12#4, 0xFF#8), (13#4, 0xFF#8), (14#4, 0xE0#8)]) =
      some ([⟨0#3, 0x41FFE333#32⟩], none) := by decide +kernel

/-- Row 11. -/
theorem test_getc_cjt :
    answered 0x000000000041#48 (holding [(10#4, 0xEE#8), (11#4, 0x20#8)]) =
      some ([⟨0#3, 0xC18F0000#32⟩], none) := by decide +kernel

/-- Row 11. -/
theorem test_getf_cjt :
    answered 0x000000000061#48 (holding [(10#4, 0xEE#8), (11#4, 0x20#8)]) =
      some ([⟨0#3, 0xBE333300#32⟩], none) := by decide +kernel

/-- Row 13. -/
theorem test_getc_lthft :
    answered 0x000000000042#48 (holding [(5#4, 0x7F#8), (6#4, 0xFF#8)]) =
      some ([⟨0#3, 0x44FFFE00#32⟩], none) := by decide +kernel

/-- Row 13. -/
theorem test_getf_lthft :
    answered 0x000000000062#48 (holding [(5#4, 0x7F#8), (6#4, 0xFF#8)]) =
      some ([⟨0#3, 0x45686499#32⟩], none) := by decide +kernel

/-- Row 15. -/
theorem test_getc_ltlft :
    answered 0x000000000043#48 (holding [(7#4, 0xFF#8), (8#4, 0x5F#8)]) =
      some ([⟨0#3, 0xC1210000#32⟩], none) := by decide +kernel

/-- Row 15. -/
theorem test_getf_ltlft :
    answered 0x000000000063#48 (holding [(7#4, 0xFF#8), (8#4, 0x5F#8)]) =
      some ([⟨0#3, 0x415E3334#32⟩], none) := by decide +kernel

/-- Row 16. -/
theorem test_getc_cjhf :
    answered 0x000000000044#48 (holding [(3#4, 0x7F#8)]) =
      some ([⟨0#3, 0x42FE0000#32⟩], none) := by decide +kernel

/-- Row 16. -/
theorem test_getf_cjhf :
    answered 0x000000000064#48 (holding [(3#4, 0x7F#8)]) =
      some ([⟨0#3, 0x43824CCC#32⟩], none) := by decide +kernel

/-- Row 18. -/
theorem test_getc_cjlf :
    answered 0x000000000045#48 (holding [(4#4, 0xC0#8)]) =
      some ([⟨0#3, 0xC2800000#32⟩], none) := by decide +kernel

/-- Row 18. -/
theorem test_getf_cjlf :
    answered 0x000000000065#48 (holding [(4#4, 0xC0#8)]) =
      some ([⟨0#3, 0xC2A66666#32⟩], none) := by decide +kernel

/-- Row 21. -/
theorem test_getc_cjto :
    answered 0x000000000046#48 (holding [(9#4, 0x7F#8)]) =
      some ([⟨0#3, 0x40FE0000#32⟩], none) := by decide +kernel

/-- Row 21. -/
theorem test_getf_cjto :
    answered 0x000000000066#48 (holding [(9#4, 0x7F#8)]) =
      some ([⟨0#3, 0x41649999#32⟩], none) := by decide +kernel

/-! Float setters (95_test_vectors.md L2.7) -/

/-- Row 1. -/
theorem test_setc_cjt :
    stored 0x41D200000051#48 (ready defaultsImage []) [10#4, 11#4] =
      some ([⟨0#3, 0#32⟩], [some 0x1A#8, some 0x40#8]) := by decide +kernel

/-- Row 10. -/
theorem test_setc_lthft :
    stored 0x447A00000052#48 (ready defaultsImage []) [5#4, 6#4] =
      some ([⟨0#3, 0#32⟩], [some 0x3E#8, some 0x80#8]) := by decide +kernel

/-- Row 12: truncation is toward zero. -/
theorem test_setc_ltlft :
    stored 0xC1211EB80053#48 (ready defaultsImage []) [7#4, 8#4] =
      some ([⟨0#3, 0#32⟩], [some 0xFF#8, some 0x5F#8]) := by decide +kernel

/-- Row 23. -/
theorem test_setc_cjhf :
    stored 0x4EFFFFFF0054#48 (ready defaultsImage []) [3#4] =
      some ([⟨0#3, 0#32⟩], [some 0x80#8]) := by decide +kernel

/-- Row 16. -/
theorem test_setc_cjlf :
    stored 0xC1A000000055#48 (ready defaultsImage []) [4#4] =
      some ([⟨0#3, 0#32⟩], [some 0xEC#8]) := by decide +kernel

/-- Row 18. -/
theorem test_setc_cjto :
    stored 0x3DCCCCCD0056#48 (ready defaultsImage []) [9#4] =
      some ([⟨0#3, 0#32⟩], [some 0x01#8]) := by decide +kernel

/-- L1.7 row 4: 1615, one below. -/
theorem test_setf_cjt :
    stored 0x429AE6660071#48 (ready defaultsImage []) [10#4, 11#4] =
      some ([⟨0#3, 0#32⟩], [some 0x19#8, some 0x3C#8]) := by decide +kernel

/-- Row 42. -/
theorem test_setf_lthft :
    stored 0x44E500000072#48 (ready defaultsImage []) [5#4, 6#4] =
      some ([⟨0#3, 0#32⟩], [some 0x3E#8, some 0x80#8]) := by decide +kernel

/-- Row 34. -/
theorem test_setf_ltlft :
    stored 0x416000000073#48 (ready defaultsImage []) [7#4, 8#4] =
      some ([⟨0#3, 0#32⟩], [some 0xFF#8, some 0x60#8]) := by decide +kernel

/-- Row 35. -/
theorem test_setf_cjhf :
    stored 0x435400000074#48 (ready defaultsImage []) [3#4] =
      some ([⟨0#3, 0#32⟩], [some 0x64#8]) := by decide +kernel

/-- Row 36. -/
theorem test_setf_cjlf :
    stored 0xC08000000075#48 (ready defaultsImage []) [4#4] =
      some ([⟨0#3, 0#32⟩], [some 0xEC#8]) := by decide +kernel

/-- Row 38. -/
theorem test_setf_cjto :
    stored 0xC16666660076#48 (ready defaultsImage []) [9#4] =
      some ([⟨0#3, 0#32⟩], [some 0x80#8]) := by decide +kernel

/-- Row 26. -/
theorem test_setc_cjt_nan :
    answered 0x7FC000000051#48 (ready defaultsImage []) = some ([⟨5#3, 0#32⟩], none) := by decide +kernel

/-- Row 21. -/
theorem test_setc_cjhf_too_large :
    answered 0x4F0000000054#48 (ready defaultsImage []) = some ([⟨5#3, 0#32⟩], none) := by decide +kernel

/-- Row 44. -/
theorem test_setf_cjhf_too_large :
    answered 0x7F7FFFFF0074#48 (ready defaultsImage []) = some ([⟨5#3, 0#32⟩], none) := by decide +kernel

/-! Witnesses: for each obligation with hypotheses, states and operands that meet all of them together -/

theorem witness_EncodeOfDecode : decode 0x000000640311#48 = .ok (.wrreg 3#4 0x64#8) := rfl

theorem witness_DecoderRejectsExactlyIllegalWords :
    illegalOpcode 0x00#8 ∧ illegalOpcode 0x05#8 ∧ illegalOpcode 0x0F#8 ∧ illegalOpcode 0x12#8 ∧
      illegalOpcode 0x30#8 ∧ illegalOpcode 0x50#8 ∧ illegalOpcode 0x70#8 ∧ illegalOpcode 0xFF#8 := by
  simp [illegalOpcode]

theorem witness_IllegalWordAnswersEIllegal_opcode :
    (issueNext State.reset 0x000000000030#48).faultRecord = none ∧
      (issueNext State.reset 0x000000000030#48).commands = [0x000000000030#48] ∧
      illegalWord 0x000000000030#48 :=
  ⟨rfl, rfl, .inl (by simp [illegalOpcode])⟩

theorem witness_IllegalWordAnswersEIllegal_field : illegalWord 0x000000010001#48 :=
  .inr ⟨.init, rfl, by decide⟩

theorem witness_StepRunsDecodedCommand :
    (issueNext State.reset 0x000000000004#48).faultRecord = none ∧
      (issueNext State.reset 0x000000000004#48).commands = [0x000000000004#48] ∧
      decode 0x000000000004#48 = .ok .rstdef :=
  ⟨rfl, rfl, rfl⟩

theorem witness_StepWithoutCommand :
    (State.reset.faultRecord = none ∧ State.reset.commands = []) ∧
      (recordFault (.uninitRead 3#4) State.reset).faultRecord = some (.uninitRead 3#4) :=
  ⟨⟨rfl, rfl⟩, rfl⟩

theorem witness_EveryCommandAnswersOnce :
    (issueNext State.reset 0x000000000010#48).faultRecord = none ∧
      (issueNext State.reset 0x000000000010#48).commands = [0x000000000010#48] :=
  ⟨rfl, rfl⟩

theorem witness_ErrorsArePrecise :
    ∃ t, exec (.wrreg 12#4 0x01#8) State.reset = .next t ∧
      t.responses = State.reset.responses ++ [⟨2#3, 0#32⟩] ∧ (2#3 ≠ 0#3) ∧ (2#3 ≠ 4#3) :=
  ⟨_, rfl, rfl, by decide, by decide⟩

theorem witness_RdregAnswersCell :
    (ready defaultsImage []).cell 0#4 = some 0x00#8 ∧ (ready defaultsImage []).cell 15#4 = some 0x00#8 :=
  ⟨rfl, rfl⟩

theorem witness_WrregStoresByte : (0#4).toNat < 12 ∧ (11#4).toNat < 12 := by decide

theorem witness_WrregRefusesReadOnlyCells :
    (12 ≤ (12#4).toNat ∧ 12 ≤ (15#4).toNat) ∧ (10#4 = 10#4 ∨ 10#4 = 11#4) ∧
      (∀ a b, Instr.rstdef ≠ .wrreg a b) ∧ ∃ t, exec .rstdef State.reset = .next t :=
  ⟨by decide, .inl rfl, by simp, _, rfl⟩

theorem witness_RegisterImageCommandsKeepControlState :
    (∃ t, exec (.rdreg 15#4) State.reset = .next t) ∧ (∃ t, exec (.wrreg 0#4 0x08#8) State.reset = .next t) ∧
      ∃ t, exec .rstdef State.reset = .next t :=
  ⟨⟨_, rfl⟩, ⟨_, rfl⟩, _, rfl⟩

theorem witness_CommandsWriteOnlyTheirCells :
    (∃ t, exec (.setCjt 1616#32) State.reset = .next t) ∧ 9#4 ∉ cellsWritten (.setCjt 1616#32) ∧
      12#4 ∉ cellsWritten (.setCjt 1616#32) :=
  ⟨⟨_, rfl⟩, by decide, by decide⟩

theorem witness_DefinedCellsStayDefined :
    (∃ t, step (issueNext (ready defaultsImage []) 0x000000640311#48) = .next t) ∧
      (issueNext (ready defaultsImage []) 0x000000640311#48).cell 3#4 ≠ none :=
  ⟨⟨_, rfl⟩, by decide⟩

/-- Every cell is defined, as RawValuesOfCells and the getters' statements ask. -/
theorem witness_getters_cells :
    ∀ a : CellAddr, (ready defaultsImage []).cell a = some (Config.defaults.factoryDefaults[a.toNat]) := by
  decide +kernel

theorem witness_ReadOfUndefinedCellIsRecorded :
    fixedCellsRead .getCjt = [] ++ 10#4 :: [11#4] ∧ State.reset.cell 10#4 = none ∧
      fixedCellsRead .getCjt = [10#4] ++ 11#4 :: [] ∧ (State.reset.setCell 10#4 0x19#8).cell 10#4 ≠ none ∧
      (State.reset.setCell 10#4 0x19#8).cell 11#4 = none := by
  decide

theorem witness_SetNibblesKeepTheOther : (ready defaultsImage []).cell 1#4 = some 0x03#8 := rfl

theorem witness_LtcCodecLaws_range : -262144 ≤ (262143 : Int) ∧ (262143 : Int) ≤ 262143 := by decide

theorem witness_CjtCodecLaws_range : -8192 ≤ (-8192 : Int) ∧ (-8192 : Int) ≤ 8191 := by decide

theorem witness_PatternsRoundTrip : F32.ofBits 0x00000001#32 ≠ .nan ∧ F32.ofBits 0xFF800000#32 ≠ .nan := by
  decide +kernel

theorem witness_FloatOperationsRoundToNearest :
    ∃ vx vy, (F32.fin true 3).value = some vx ∧ (F32.fin false 1).value = some vy ∧ vy ≠ 0 :=
  ⟨_, _, rfl, rfl, by norm_num⟩

/-- The branch of an infinity, at its boundary: the greatest binary32 plus 2^103 is 2^128 - 2^103. -/
theorem witness_FloatOperationsRoundToNearest_overflow :
    ∃ vx vy, (F32.fin false (16777215 * 2 ^ 253)).value = some vx ∧ (F32.fin false (2 ^ 252)).value = some vy ∧
      ¬ |vx + vy| < 2 ^ 128 - 2 ^ 103 ∧
      fadd (F32.fin false (16777215 * 2 ^ 253)) (F32.fin false (2 ^ 252)) = .inf false :=
  ⟨_, _, rfl, rfl, by norm_num, by decide +kernel⟩

/-- The raw values the float getters' statements and the round trips ask for. -/
theorem witness_float_getters :
    ∀ p ∈ celsiusGetters ++ fahrenheitGetters, ∃ r, readRaw (ready defaultsImage []) p.1 = .ok r := by
  simp only [celsiusGetters, fahrenheitGetters, List.cons_append, List.nil_append, List.forall_mem_cons]
  exact ⟨⟨_, rfl⟩, ⟨_, rfl⟩, ⟨_, rfl⟩, ⟨_, rfl⟩, ⟨_, rfl⟩, ⟨_, rfl⟩, ⟨_, rfl⟩, ⟨_, rfl⟩, ⟨_, rfl⟩, ⟨_, rfl⟩,
    ⟨_, rfl⟩, ⟨_, rfl⟩, ⟨_, rfl⟩, ⟨_, rfl⟩, by simp⟩

/-- CelsiusRoundTripIsExact and FahrenheitRoundTripWithinOne: every listed quantity is readable (the state the setter
runs from is any state). -/
theorem witness_round_trips :
    ∀ p ∈ celsiusPairs ++ fahrenheitPairs, ∃ r, readRaw (ready defaultsImage []) p.1 = .ok r := by
  simp only [celsiusPairs, fahrenheitPairs, List.cons_append, List.nil_append, List.forall_mem_cons]
  exact ⟨⟨_, rfl⟩, ⟨_, rfl⟩, ⟨_, rfl⟩, ⟨_, rfl⟩, ⟨_, rfl⟩, ⟨_, rfl⟩, ⟨_, rfl⟩, ⟨_, rfl⟩, ⟨_, rfl⟩, ⟨_, rfl⟩,
    ⟨_, rfl⟩, ⟨_, rfl⟩, by simp⟩

/-- At the ends of the range: 2147483520.0, the greatest binary32 below 2^31, and -2^31 (CJHF, scale 1). -/
theorem witness_CelsiusSettersTruncate :
    (Quantity.cjhf, Instr.setcCjhf, Instr.setCjhf) ∈ celsiusSetters ∧
      F32.ofBits 0x4EFFFFFF#32 = .fin false (16777215 * 2 ^ 156) ∧
      (16777215 * 2 ^ 156 * Quantity.cjhf.scale / 2 ^ 149 = 2147483520) ∧
      F32.ofBits 0xCF000000#32 = .fin true (8388608 * 2 ^ 157) ∧
      (8388608 * 2 ^ 157 * Quantity.cjhf.scale / 2 ^ 149 = 2147483648) := by
  refine ⟨by simp [celsiusSetters], ?_⟩
  decide +kernel

/-- Each clause: a NaN, an infinity, 2^31 and the next below -2^31. -/
theorem witness_CelsiusSettersRefuse :
    (Quantity.cjhf, Instr.setcCjhf, Instr.setCjhf) ∈ celsiusSetters ∧
      F32.ofBits 0x7FC00000#32 = .nan ∧ F32.ofBits 0xFF800000#32 = .inf true ∧
      F32.ofBits 0x4F000000#32 = .fin false (8388608 * 2 ^ 157) ∧
      (8388608 * 2 ^ 157 * Quantity.cjhf.scale / 2 ^ 149 = 2147483648) ∧
      F32.ofBits 0xCF000001#32 = .fin true (8388609 * 2 ^ 157) ∧
      (8388609 * 2 ^ 157 * Quantity.cjhf.scale / 2 ^ 149 = 2147483904) := by
  refine ⟨by simp [celsiusSetters], ?_⟩
  decide +kernel

/-- Each clause: a value in range (212.0), one out of range (the greatest binary32), an infinity and a NaN. -/
theorem witness_FahrenheitSettersFollowFormula :
    (Quantity.cjhf, Instr.setfCjhf, Instr.setCjhf) ∈ fahrenheitSetters ∧
      fdiv (fsub (F32.ofBits 0x43540000#32) (F32.ofBits 0x42000000#32)) (F32.ofBits 0x3FE66666#32) =
        .fin false (100 * 2 ^ 149) ∧
      (∃ n, fdiv (fsub (F32.ofBits 0x7F7FFFFF#32) (F32.ofBits 0x42000000#32)) (F32.ofBits 0x3FE66666#32) =
        .fin false n ∧ 2147483648 ≤ n * Quantity.cjhf.scale / 2 ^ 149) ∧
      F32.ofBits 0x7F800000#32 = .inf false ∧ F32.ofBits 0x7FC00000#32 = .nan := by
  refine ⟨by simp [fahrenheitSetters], by decide +kernel, ⟨9320675 * 2 ^ 253, by decide +kernel, by decide +kernel⟩,
    by decide +kernel, by decide +kernel⟩

/-- INIT and REFRESH with no failed exchange. -/
theorem witness_reads_answered :
    deviceBytes.length = 16 ∧
      (ready [] (received (0xEE#8 :: deviceBytes))).initialized = true ∧
      (ready [] (received (0xEE#8 :: deviceBytes))).busAnswerAt 0 = .byte 0xEE#8 ∧
      ∀ k (h : k < deviceBytes.length),
        (ready [] (received (0xEE#8 :: deviceBytes))).busAnswerAt (k + 1) = .byte deviceBytes[k] := by
  decide +kernel

/-- The address exchange failed; the first and the last data exchange failed. -/
theorem witness_FailedReadKeepsReceivedCells :
    (ready [] [.fail]).initialized = true ∧ (ready [] [.fail]).busAnswerAt 0 = .fail ∧
      (ready [] [.byte 0#8, .fail]).busAnswerAt 0 = .byte 0#8 ∧
      (ready [] [.byte 0#8, .fail]).busAnswerAt (([] : List Byte).length + 1) = .fail ∧
      (deviceBytes.take 15).length ≤ 15 ∧
      (ready [] (received (0#8 :: deviceBytes.take 15) ++ [.fail])).busAnswerAt 0 = .byte 0#8 ∧
      (∀ k (h : k < (deviceBytes.take 15).length),
        (ready [] (received (0#8 :: deviceBytes.take 15) ++ [.fail])).busAnswerAt (k + 1) =
          .byte (deviceBytes.take 15)[k]) ∧
      (ready [] (received (0#8 :: deviceBytes.take 15) ++ [.fail])).busAnswerAt
        ((deviceBytes.take 15).length + 1) = .fail := by
  decide +kernel

/-- The bytes COMMIT sends from the defaults: cell 0 is 0x00, so ten. -/
def defaultsSent : List Byte := Config.defaults.factoryDefaults.toList.take 10

/-- COMMIT with CJ = 0 and no failed exchange. -/
theorem witness_CommitSendsWritablePrefix_internal :
    (ready defaultsImage (received (List.replicate 11 0x55#8))).initialized = true ∧
      (ready defaultsImage (received (List.replicate 11 0x55#8))).cell 0#4 = some 0x00#8 ∧
      defaultsSent.length = (if (0x00#8).getLsbD 3 then 12 else 10) ∧
      (∀ k (h : k < defaultsSent.length),
        (ready defaultsImage (received (List.replicate 11 0x55#8))).cell (BitVec.ofNat 4 k) =
          some defaultsSent[k]) ∧
      (List.replicate 10 0x55#8).length = defaultsSent.length ∧
      ∀ k, k < (List.replicate 10 0x55#8).length + 1 →
        (ready defaultsImage (received (List.replicate 11 0x55#8))).busAnswerAt k = .byte 0x55#8 := by
  decide +kernel

/-- The twelve bytes COMMIT sends from the defaults with cell 0 = 0x08. -/
def externalSent : List Byte := 0x08#8 :: (Config.defaults.factoryDefaults.toList.take 12).tail

/-- INIT done, the defaults with cell 0 = 0x08, thirteen bytes to come. -/
def externalReady : State :=
  { holding [(0#4, 0x08#8)] with busAnswers := received (List.replicate 13 0x55#8) }

/-- COMMIT with CJ = 1 and no failed exchange. -/
theorem witness_CommitSendsWritablePrefix_external :
    externalReady.initialized = true ∧ externalReady.cell 0#4 = some 0x08#8 ∧
      externalSent.length = (if (0x08#8).getLsbD 3 then 12 else 10) ∧
      (∀ k (h : k < externalSent.length), externalReady.cell (BitVec.ofNat 4 k) = some externalSent[k]) ∧
      (List.replicate 12 0x55#8).length = externalSent.length ∧
      ∀ k, k < (List.replicate 12 0x55#8).length + 1 → externalReady.busAnswerAt k = .byte 0x55#8 := by
  decide +kernel

/-- COMMIT whose address exchange fails, and one whose last data exchange fails. -/
theorem witness_FailedCommitKeepsImage :
    ([] : List Byte).length ≤ defaultsSent.length ∧
      (ready defaultsImage [.fail]).busAnswerAt ([] : List Byte).length = .fail ∧
      (List.replicate 10 0x55#8).length ≤ defaultsSent.length ∧
      (∀ k (h : k < (List.replicate 10 0x55#8).length),
        (ready defaultsImage (received (List.replicate 10 0x55#8) ++ [.fail])).busAnswerAt k =
          .byte (List.replicate 10 0x55#8)[k]) ∧
      (ready defaultsImage (received (List.replicate 10 0x55#8) ++ [.fail])).busAnswerAt
        (List.replicate 10 0x55#8).length = .fail ∧
      (ready defaultsImage []).initialized = true ∧ (ready defaultsImage []).cell 0#4 = some 0x00#8 ∧
      defaultsSent.length = (if (0x00#8).getLsbD 3 then 12 else 10) ∧
      ∀ k (h : k < defaultsSent.length),
        (ready defaultsImage []).cell (BitVec.ofNat 4 k) = some defaultsSent[k] := by
  decide +kernel

theorem witness_TransactionsNeedInit :
    State.reset.initialized = false ∧ (Instr.rstdef ≠ .refresh) ∧ (Instr.rstdef ≠ .commit) ∧
      ∃ t, exec .rstdef State.reset = .next t :=
  ⟨rfl, by decide, by decide, _, rfl⟩

/-- Cell 0 undefined; the last cell to send undefined, with CJ = 0 and with CJ = 1. -/
theorem witness_CommitOfUndefinedCellIsRecorded :
    ((ready [] []).initialized = true ∧ (ready [] []).cell 0#4 = none) ∧
      ((ready (defaultsImage.take 9) []).cell 0#4 = some 0x00#8 ∧
        9 < (if (0x00#8).getLsbD 3 then 12 else 10) ∧
        (∀ k, k < 9 → (ready (defaultsImage.take 9) []).cell (BitVec.ofNat 4 k) ≠ none) ∧
        (ready (defaultsImage.take 9) []).cell (BitVec.ofNat 4 9) = none) ∧
      ((ready (Memory.write (defaultsImage.take 11) 0 0x08#8) []).cell 0#4 = some 0x08#8 ∧
        11 < (if (0x08#8).getLsbD 3 then 12 else 10) ∧
        (∀ k, k < 11 →
          (ready (Memory.write (defaultsImage.take 11) 0 0x08#8) []).cell (BitVec.ofNat 4 k) ≠ none) ∧
        (ready (Memory.write (defaultsImage.take 11) 0 0x08#8) []).cell (BitVec.ofNat 4 11) = none) := by
  decide +kernel

/-- REFRESH of `deviceBytes` (the first is 0x00, so ten bytes go back), then COMMIT. -/
theorem witness_RefreshThenCommitRoundTrip :
    ∃ s t, s.initialized = true ∧ s.busAnswerAt 0 = .byte 0xEE#8 ∧
      (∀ k (h : k < deviceBytes.length), s.busAnswerAt (k + 1) = .byte deviceBytes[k]) ∧
      exec .refresh s = .next t ∧ t.busAnswerAt 0 = .byte 0x55#8 ∧
      (List.replicate 10 0x55#8).length = (if (deviceBytes[0]'(by decide)).getLsbD 3 then 12 else 10) ∧
      ∀ k (h : k < (List.replicate 10 0x55#8).length),
        t.busAnswerAt (k + 1) = .byte (List.replicate 10 0x55#8)[k] :=
  ⟨ready [] (received (0xEE#8 :: deviceBytes ++ List.replicate 11 0x55#8)), _, rfl, rfl, by decide +kernel, rfl,
    rfl, rfl, by decide +kernel⟩

/-- Two COMMITs from the defaults, each answered `OK`. -/
theorem witness_CommitIsRepeatable :
    ∃ t u, exec .commit (ready defaultsImage (received (List.replicate 22 0x55#8))) = .next t ∧
      t.responses = (ready defaultsImage []).responses ++ [⟨0#3, 0#32⟩] ∧ t.image = t.image ∧
      exec .commit t = .next u ∧ u.responses = t.responses ++ [⟨0#3, 0#32⟩] :=
  ⟨_, _, rfl, rfl, rfl, rfl, rfl⟩

theorem witness_OtherCommandsCallNoBus :
    callsBus .rstdef = false ∧ ∃ t, exec .rstdef State.reset = .next t :=
  ⟨rfl, _, rfl⟩

theorem witness_OnlyInitSetsInitialized :
    Instr.refresh ≠ .init ∧ ∃ t, exec .refresh State.reset = .next t :=
  ⟨by decide, _, rfl⟩

/-- TraceGrowsByFrames and StepKeepsInvariant: a step with a frame, from a state with the invariant. -/
theorem witness_steps_with_invariant :
    Inv (issueNext (ready defaultsImage [.fail]) 0x000000000002#48) ∧
      ∃ t, step (issueNext (ready defaultsImage [.fail]) 0x000000000002#48) = .next t ∧ t.trace ≠ [] :=
  ⟨by decide +kernel, _, rfl, by decide⟩

/-- TransactionsEndReleased: INIT from reset, REFRESH and COMMIT once initialized. -/
theorem witness_TransactionsEndReleased :
    (∃ t, exec .init { State.reset with busAnswers := [.fail] } = .next t) ∧
      ((ready defaultsImage [.fail]).initialized = true ∧
        ∃ t, exec .refresh (ready defaultsImage [.fail]) = .next t) ∧
      ∃ t, exec .commit (ready defaultsImage [.fail]) = .next t ∧
        t.responses ≠ (ready defaultsImage [.fail]).responses :=
  ⟨⟨_, rfl⟩, ⟨rfl, _, rfl⟩, _, rfl, by decide⟩

theorem witness_SelectLineLevel :
    State.reset.csConfigured = false ∧ (busSelect (ready [] [])).csConfigured = true ∧
      (busSelect (ready [] [])).csAsserted = true ∧ (ready [] []).csConfigured = true ∧
      (ready [] []).csAsserted = false :=
  ⟨rfl, rfl, rfl, rfl, rfl⟩

end Sys2Proof.Tests
end

section
/-! The fields of a binary32 pattern, and the round trip between patterns and values (00_scope.md R16,
43_codec_float.md R200). -/

namespace Sys2Proof.Machine

/-- The pattern with the given sign, exponent field and fraction field. -/
def packFields (neg : Bool) (e frac : Nat) : Word := BitVec.ofBool neg ++ BitVec.ofNat 31 (e * 2 ^ 23 + frac)

theorem toNat_packFields {e frac : Nat} (neg : Bool) (he : e < 256) (hf : frac < 2 ^ 23) :
    (packFields neg e frac).toNat = neg.toNat * 2 ^ 31 + (e * 2 ^ 23 + frac) := by
  have hlt : e * 2 ^ 23 + frac < 2 ^ 31 := by omega
  rw [packFields, BitVec.toNat_append, BitVec.toNat_ofBool, BitVec.toNat_ofNat, Nat.mod_eq_of_lt hlt,
    ← Nat.shiftLeft_add_eq_or_of_lt hlt, Nat.shiftLeft_eq]

/-- Every pattern is the packing of its fields. -/
theorem packFields_fields (p : Word) :
    packFields p.msb (p.extractLsb' 23 8).toNat (p.extractLsb' 0 23).toNat = p := by
  apply BitVec.eq_of_toNat_eq
  rw [toNat_packFields _ (p.extractLsb' 23 8).isLt (p.extractLsb' 0 23).isLt, BitVec.msb_eq_decide]
  simp only [BitVec.extractLsb'_toNat, Nat.shiftRight_eq_div_pow]
  have hlt := p.isLt
  by_cases hmsb : 2 ^ (32 - 1) ≤ p.toNat
  · rw [decide_eq_true hmsb, Bool.toNat_true]; omega
  · rw [decide_eq_false hmsb, Bool.toNat_false]; omega

/-- The value of a pattern by its fields. -/
theorem ofBits_packFields {e frac : Nat} (neg : Bool) (he : e < 256) (hf : frac < 2 ^ 23) :
    F32.ofBits (packFields neg e frac) =
      if e = 255 then (if frac = 0 then .inf neg else .nan)
      else if e = 0 then .fin neg frac
      else .fin neg ((2 ^ 23 + frac) * 2 ^ (e - 1)) := by
  have hn := toNat_packFields neg he hf
  have hmsb : (packFields neg e frac).msb = neg := by
    rw [BitVec.msb_eq_decide, hn]; cases neg <;> simp; omega
  have hexp : ((packFields neg e frac).extractLsb' 23 8).toNat = e := by
    rw [BitVec.extractLsb'_toNat, Nat.shiftRight_eq_div_pow, hn]; cases neg <;> simp <;> omega
  have hfrac : ((packFields neg e frac).extractLsb' 0 23).toNat = frac := by
    rw [BitVec.extractLsb'_toNat, Nat.shiftRight_eq_div_pow, hn]; cases neg <;> simp <;> omega
  simp only [F32.ofBits, hmsb, hexp, hfrac]

/-- The low bit of a pattern is that of its fraction field. -/
theorem getLsbD_zero_packFields {e frac : Nat} (neg : Bool) (he : e < 256) (hf : frac < 2 ^ 23) :
    (packFields neg e frac).getLsbD 0 = decide (frac % 2 = 1) := by
  rw [← BitVec.testBit_toNat, Nat.testBit_zero, toNat_packFields neg he hf]
  congr 2
  omega

/-! The binade and the magnitude bits of a number of units -/

theorem binade_of_lt {units : Nat} (h : units < 2 ^ 24) : binade units = 0 := by
  unfold binade; exact if_pos h

theorem binade_of_le {units : Nat} (h : 2 ^ 24 ≤ units) : binade units = units.log2 - 23 := by
  unfold binade; exact if_neg (Nat.not_lt.2 h)

/-- A significand of 24 bits keeps its binade under scaling. -/
theorem binade_mul_two_pow {k : Nat} (t : Nat) (hlo : 2 ^ 23 ≤ k) (hhi : k < 2 ^ 24) : binade (k * 2 ^ t) = t := by
  cases t with
  | zero => exact binade_of_lt (by omega)
  | succ t =>
    have hle : 2 ^ 24 ≤ k * 2 ^ (t + 1) := by
      have := Nat.mul_le_mul hlo (Nat.one_le_two_pow (n := t))
      rw [pow_succ 2 t, ← Nat.mul_assoc]; omega
    have hlog : (k * 2 ^ (t + 1)).log2 = 23 + (t + 1) := by
      rw [Nat.log2_eq_iff (by omega), Nat.add_right_comm, pow_add, pow_add 2 (23 + 1)]
      exact ⟨Nat.mul_le_mul_right _ hlo, Nat.mul_lt_mul_of_pos_right hhi (by positivity)⟩
    rw [binade_of_le hle, hlog]; omega

theorem lt_two_pow_binade (units : Nat) : units < 2 ^ (binade units + 24) := by
  obtain h | h := Nat.lt_or_ge units (2 ^ 24)
  · simpa [binade_of_lt h] using h
  · rw [binade_of_le h]
    exact Nat.lt_log2_self.trans_le (Nat.pow_le_pow_right (by norm_num) (by omega))

theorem two_pow_binade_le {units : Nat} (h : binade units ≠ 0) : 2 ^ (binade units + 23) ≤ units := by
  have hle : 2 ^ 24 ≤ units := Nat.not_lt.1 fun hlt => h (binade_of_lt hlt)
  rw [binade_of_le hle] at h ⊢
  rw [Nat.sub_add_cancel (by omega)]
  exact Nat.log2_self_le (by omega)

theorem magnitudeBits_of_lt {units : Nat} (h : units < 2 ^ 24) : magnitudeBits units = units := by
  simp [magnitudeBits, binade_of_lt h]

theorem magnitudeBits_mul_two_pow {k : Nat} (t : Nat) (hlo : 2 ^ 23 ≤ k) (hhi : k < 2 ^ 24) :
    magnitudeBits (k * 2 ^ t) = t * 2 ^ 23 + k := by
  rw [magnitudeBits, binade_mul_two_pow t hlo hhi, Nat.mul_div_cancel _ (by positivity)]

/-! From a value back to its pattern -/

theorem bits_fin {units e frac : Nat} (neg : Bool) (h : magnitudeBits units = e * 2 ^ 23 + frac) :
    (F32.fin neg units).bits = packFields neg e frac := by
  rw [packFields, ← h]; rfl

theorem bits_inf (neg : Bool) : (F32.inf neg).bits = packFields neg 255 0 := rfl

/-- Any pattern with exponent field 255 and the quiet bit set is a NaN, whatever its sign and payload. -/
theorem ofBits_quietNan (neg : Bool) (payload : BitVec 22) :
    F32.ofBits (BitVec.ofBool neg ++ 0xFF#8 ++ 1#1 ++ payload) = .nan := by
  have hp := payload.isLt
  have hpack : BitVec.ofBool neg ++ 0xFF#8 ++ 1#1 ++ payload = packFields neg 255 (2 ^ 22 + payload.toNat) := by
    apply BitVec.eq_of_toNat_eq
    rw [toNat_packFields neg (by omega) (by omega)]
    simp only [BitVec.toNat_append, BitVec.toNat_ofBool, BitVec.toNat_ofNat]
    rw [← Nat.shiftLeft_add_eq_or_of_lt hp]
    cases neg <;> simp [Nat.shiftLeft_eq] <;> omega
  rw [hpack, ofBits_packFields neg (by omega) (by omega), if_pos rfl, if_neg (by omega)]

/-- Settles O33, by the three fields of a pattern. -/
theorem patternsRoundTrip : Obligations.PatternsRoundTrip := by
  unfold Obligations.PatternsRoundTrip
  refine ⟨fun p hp => ?_, ofBits_quietNan _ _⟩
  obtain ⟨neg, e, frac, he, hf, rfl⟩ :
      ∃ neg e frac, e < 256 ∧ frac < 2 ^ 23 ∧ p = packFields neg e frac :=
    ⟨_, _, _, (p.extractLsb' 23 8).isLt, (p.extractLsb' 0 23).isLt, (packFields_fields p).symm⟩
  rw [ofBits_packFields neg he hf] at hp ⊢
  split_ifs at hp ⊢ with he255 hf0 he0
  · rw [bits_inf, he255, hf0]
  · exact absurd rfl hp
  · exact bits_fin neg (by rw [magnitudeBits_of_lt (by omega), he0, Nat.zero_mul, Nat.zero_add])
  · exact bits_fin neg (by rw [magnitudeBits_mul_two_pow _ (by omega) (by omega)]; omega)

/-- Settles O34: each side is a closed value of the model. -/
theorem conversionConstants : Obligations.ConversionConstants := by
  unfold Obligations.ConversionConstants
  decide

end Sys2Proof.Machine
end

section
/-! Rounding of a nonnegative rational to a whole number and to 24 significant bits, ties to even. -/

namespace Sys2Proof.Machine

/-! Rounding to the nearest whole number -/

/-- `k` is a whole number nearest to `y`, and even if another is as near. -/
structure NearestEven (y : ℚ) (k : Nat) : Prop where
  near : |y - k| ≤ 1 / 2
  tie : |y - k| = 1 / 2 → k % 2 = 0

/-- The bounds and the tie in natural numbers, `k` against `num / den`. -/
theorem nearestEven_of_bounds {num den k : Nat} (hden : 0 < den) (hlo : 2 * (den * k) ≤ 2 * num + den)
    (hhi : 2 * num ≤ 2 * (den * k) + den)
    (htie : 2 * (den * k) = 2 * num + den ∨ 2 * num = 2 * (den * k) + den → k % 2 = 0) :
    NearestEven ((num : ℚ) / den) k := by
  have hd : (0 : ℚ) < den := by exact_mod_cast hden
  have hsub : (num : ℚ) / den - k = (2 * num - 2 * (den * k)) / (2 * den) := by field_simp
  have hhalf : (1 : ℚ) / 2 = den / (2 * den) := by field_simp
  have hlo' : (2 : ℚ) * (den * k) ≤ 2 * num + den := by exact_mod_cast hlo
  have hhi' : (2 : ℚ) * num ≤ 2 * (den * k) + den := by exact_mod_cast hhi
  constructor
  · rw [hsub, hhalf, abs_le, ← neg_div]
    constructor <;> gcongr <;> linarith
  · intro h
    apply htie
    rw [hsub, hhalf, abs_div, abs_of_pos (by positivity : (0 : ℚ) < 2 * den), div_left_inj' (by positivity)] at h
    obtain h | h := eq_or_eq_neg_of_abs_eq h
    · exact .inr (by exact_mod_cast (by linarith : (2 : ℚ) * num = 2 * (den * k) + den))
    · exact .inl (by exact_mod_cast (by linarith : (2 : ℚ) * (den * k) = 2 * num + den))

theorem divNearestEven_nearestEven {num den : Nat} (hden : 0 < den) :
    NearestEven ((num : ℚ) / den) (divNearestEven num den) := by
  have hdiv := Nat.div_add_mod num den
  have hmod := Nat.mod_lt num hden
  unfold divNearestEven
  dsimp only
  split_ifs with hdown hup
  · refine nearestEven_of_bounds hden ?_ ?_ ?_ <;> omega
  · have hmul := Nat.mul_add den (num / den) 1
    refine nearestEven_of_bounds hden ?_ ?_ ?_ <;> omega
  · -- a tie: an odd quotient goes up
    have hmul := Nat.mul_add den (num / den) (num / den % 2)
    obtain hq | hq := Nat.mod_two_eq_zero_or_one (num / den)
    all_goals
      rw [hq] at hmul ⊢
      refine nearestEven_of_bounds hden ?_ ?_ ?_ <;> omega

/-- No whole number is nearer, and another one as near leaves `k` even. -/
theorem NearestEven.le_abs_sub {y : ℚ} {k : Nat} (h : NearestEven y k) (z : Int) :
    |y - k| ≤ |y - z| ∧ (|y - k| = |y - z| → z = k ∨ k % 2 = 0) := by
  by_cases hz : z = k
  · simp [hz]
  have hone : (1 : ℚ) ≤ |(k : ℚ) - z| := by
    exact_mod_cast Int.one_le_abs (sub_ne_zero.2 (Ne.symm hz))
  have htri : |(k : ℚ) - z| ≤ |y - k| + |y - z| := by
    rw [abs_sub_comm y k]; exact abs_sub_le _ _ _
  have hnear := h.near
  exact ⟨by linarith, fun heq => .inr (h.tie (by linarith))⟩

/-! Rounding to 24 significant bits -/

/-- `k * 2 ^ t` is `r` rounded to 24 significant bits: `t` is the binade of `r` and `k` its rounded significand. -/
structure RoundedUnits (r : ℚ) (t k : Nat) : Prop where
  lt_top : r < 2 ^ (t + 24)
  bottom_le : t ≠ 0 → 2 ^ (t + 23) ≤ r
  nearest : NearestEven (r / 2 ^ t) k

theorem roundedUnits_divNearestEven (num : Nat) {den : Nat} (hden : 0 < den) :
    RoundedUnits ((num : ℚ) / den) (binade (num / den)) (divNearestEven num (den * 2 ^ binade (num / den))) where
  lt_top := by
    have h := (Nat.div_lt_iff_lt_mul hden).1 (lt_two_pow_binade (num / den))
    rw [div_lt_iff₀ (by exact_mod_cast hden)]
    exact_mod_cast h
  bottom_le ht := by
    have h := (Nat.le_div_iff_mul_le hden).1 (two_pow_binade_le ht)
    rw [le_div_iff₀ (by exact_mod_cast hden)]
    exact_mod_cast h
  nearest := by
    have h := divNearestEven_nearestEven (num := num) (den := den * 2 ^ binade (num / den)) (by positivity)
    rwa [Nat.cast_mul, Nat.cast_pow, Nat.cast_ofNat, ← div_div] at h

theorem abs_sub_mul_two_pow (r z : ℚ) (t : Nat) : |r - z * 2 ^ t| = |r / 2 ^ t - z| * 2 ^ t := by
  have hpos : (0 : ℚ) < 2 ^ t := by positivity
  rw [← abs_of_pos hpos, ← abs_mul, sub_mul, abs_of_pos hpos, div_mul_cancel₀ _ hpos.ne']

namespace RoundedUnits

variable {r : ℚ} {t k : Nat}

theorem sig_le (h : RoundedUnits r t k) : k ≤ 2 ^ 24 := by
  have htop : r / 2 ^ t < 2 ^ 24 := by
    rw [div_lt_iff₀ (by positivity), ← pow_add, Nat.add_comm]; exact h.lt_top
  have hnear := (abs_le.1 h.nearest.near).1
  have : (k : ℚ) < (2 ^ 24 + 1 : Nat) := by push_cast; linarith
  exact Nat.lt_succ_iff.1 (by exact_mod_cast this)

theorem le_sig (h : RoundedUnits r t k) (ht : t ≠ 0) : 2 ^ 23 ≤ k := by
  have hbot : 2 ^ 23 ≤ r / 2 ^ t := by
    rw [le_div_iff₀ (by positivity), ← pow_add, Nat.add_comm]; exact h.bottom_le ht
  have hnear := (abs_le.1 h.nearest.near).2
  have : ((2 ^ 23 : Nat) : ℚ) < (k + 1 : Nat) := by push_cast; linarith
  exact Nat.lt_succ_iff.1 (by exact_mod_cast this)

/-- No number with a 24-bit significand is nearer, and one as near leaves `k` even. -/
theorem le_abs_sub (h : RoundedUnits r t k) {m : Int} (hm : |m| < 2 ^ 24) (e : Nat) :
    |r - k * 2 ^ t| ≤ |r - m * 2 ^ e| ∧
      (|r - k * 2 ^ t| = |r - m * 2 ^ e| → (m * 2 ^ e : ℚ) = k * 2 ^ t ∨ k % 2 = 0) := by
  have hpos : (0 : ℚ) < 2 ^ t := by positivity
  obtain hte | het := le_or_gt t e
  · -- a multiple of the spacing `2 ^ t`
    have hgrid : (m * 2 ^ e : ℚ) = ((m * 2 ^ (e - t) : Int) : ℚ) * 2 ^ t := by
      push_cast; rw [mul_assoc, ← pow_add, Nat.sub_add_cancel hte]
    obtain ⟨hle, heq⟩ := h.nearest.le_abs_sub (m * 2 ^ (e - t))
    rw [hgrid, abs_sub_mul_two_pow, abs_sub_mul_two_pow]
    refine ⟨by gcongr, fun hsame => ?_⟩
    refine (heq (mul_right_cancel₀ hpos.ne' hsame)).imp_left fun hz => ?_
    rw [hz, Int.cast_natCast]
  · -- below the binade of `r`: its bottom is nearer than `m * 2 ^ e`
    have hbot := h.bottom_le (by omega)
    have hlt : (m * 2 ^ e : ℚ) < 2 ^ (t + 23) := by
      have hm' : (m : ℚ) < 2 ^ 24 := by exact_mod_cast (le_abs_self m).trans_lt hm
      calc (m * 2 ^ e : ℚ) < 2 ^ 24 * 2 ^ e := by gcongr
        _ = 2 ^ (e + 24) := by ring
        _ ≤ 2 ^ (t + 23) := pow_le_pow_right₀ (by norm_num) (by omega)
    have hle := (h.nearest.le_abs_sub (2 ^ 23)).1
    have hfar : |r - k * 2 ^ t| ≤ |r - 2 ^ (t + 23)| := by
      rw [show (2 : ℚ) ^ (t + 23) = ((2 ^ 23 : Int) : ℚ) * 2 ^ t by push_cast; ring, abs_sub_mul_two_pow,
        abs_sub_mul_two_pow]
      gcongr
    have hcloser : |r - 2 ^ (t + 23)| < |r - m * 2 ^ e| := by
      rw [abs_of_nonneg (by linarith), abs_of_pos (by linarith)]; linarith
    exact ⟨by linarith, fun hsame => by linarith⟩

theorem exp_le {emax : Nat} (h : RoundedUnits r t k) (hlt : k * 2 ^ t < 2 ^ 24 * 2 ^ emax) : t ≤ emax := by
  by_contra! ht
  have hpow : 2 ^ (emax + 1) ≤ 2 ^ t := Nat.pow_le_pow_right (by norm_num) ht
  have := Nat.mul_le_mul (h.le_sig (by omega)) hpow
  rw [pow_succ 2 emax] at this
  omega

/-- Rounding overflows a greatest exponent `emax` exactly from halfway past the greatest number on. -/
theorem lt_iff (h : RoundedUnits r t k) (emax : Nat) :
    k * 2 ^ t < 2 ^ 24 * 2 ^ emax ↔ r < (2 ^ 24 - 1 / 2) * 2 ^ emax := by
  have hr : r / 2 ^ t * 2 ^ t = r := div_mul_cancel₀ _ (by positivity)
  have hemax : (0 : ℚ) < 2 ^ emax := by positivity
  obtain ⟨hlo, hhi⟩ := abs_le.1 h.nearest.near
  constructor
  · intro hlt
    obtain ht | rfl := (h.exp_le hlt).lt_or_eq
    · have hpow : (2 : ℚ) ^ (t + 1) ≤ 2 ^ emax := pow_le_pow_right₀ (by norm_num) ht
      have htop := h.lt_top
      rw [pow_add] at hpow htop
      linarith
    · -- `k` is at most the greatest significand, which is odd and so no result of a tie
      have hk : k ≤ 2 ^ 24 - 1 := Nat.le_pred_of_lt (Nat.lt_of_mul_lt_mul_right hlt)
      have hkq : (k : ℚ) ≤ 2 ^ 24 - 1 := by exact_mod_cast (by omega : (k : Int) ≤ 2 ^ 24 - 1)
      have hne : r / 2 ^ t ≠ 2 ^ 24 - 1 / 2 := fun hy => by
        have heq : (k : ℚ) = 2 ^ 24 - 1 := by linarith
        have heven := h.nearest.tie (by rw [heq, hy]; norm_num)
        have : (k : Int) = 2 ^ 24 - 1 := by exact_mod_cast heq
        omega
      rw [← div_lt_iff₀ hemax]
      exact lt_of_le_of_ne (by linarith) hne
  · intro hlt
    have ht : t ≤ emax := by
      by_contra! ht
      have hpow : (2 : ℚ) ^ (emax + 1) ≤ 2 ^ t := pow_le_pow_right₀ (by norm_num) ht
      have hbot := h.bottom_le (by omega)
      rw [pow_add] at hpow hbot
      linarith
    have hpow : (2 : ℚ) ^ t ≤ 2 ^ emax := pow_le_pow_right₀ (by norm_num) ht
    have hcast : (k : ℚ) * 2 ^ t < 2 ^ 24 * 2 ^ emax := by
      calc (k : ℚ) * 2 ^ t ≤ (r / 2 ^ t + 1 / 2) * 2 ^ t := by gcongr; linarith
        _ = r + 2 ^ t / 2 := by rw [add_mul, hr]; ring
        _ < 2 ^ 24 * 2 ^ emax := by linarith
    exact_mod_cast hcast

end RoundedUnits

end Sys2Proof.Machine
end

section
/-! `rne32` and the four operations round to the nearest binary32, ties to even (00_scope.md R16,
43_codec_float.md R200; the overflow is log 12). -/

namespace Sys2Proof.Machine

/-! Finite values and their patterns -/

/-- A sign bit as a factor. -/
def signFactor (neg : Bool) : ℚ := if neg then -1 else 1

theorem value_fin (neg : Bool) (units : Nat) :
    (F32.fin neg units).value = some (signFactor neg * units / 2 ^ 149) := rfl

theorem value_eq_some {x : F32} {v : ℚ} (h : x.value = some v) :
    ∃ neg units, x = .fin neg units ∧ v = signFactor neg * units / 2 ^ 149 := by
  cases x with
  | nan => cases h
  | inf neg => cases h
  | fin neg units => exact ⟨neg, units, rfl, (Option.some.inj h).symm⟩

@[simp] theorem abs_signFactor (neg : Bool) : |signFactor neg| = 1 := by cases neg <;> simp [signFactor]

theorem signFactor_not (neg : Bool) : signFactor (!neg) = -signFactor neg := by cases neg <;> simp [signFactor]

theorem signFactor_xor (a b : Bool) : signFactor (a ^^ b) = signFactor a * signFactor b := by
  cases a <;> cases b <;> simp [signFactor]

@[simp] theorem signFactor_mul_cancel (neg : Bool) (u : ℚ) : signFactor neg * (signFactor neg * u) = u := by
  cases neg <;> simp [signFactor]

theorem div_signFactor (v : ℚ) (neg : Bool) : v / signFactor neg = signFactor neg * v := by
  cases neg <;> simp [signFactor, div_neg]

/-- A significand of 24 bits keeps its size under a sign. -/
theorem exists_signed_significand (neg : Bool) {m : Int} (hm : |m| < 2 ^ 24) :
    ∃ m' : Int, |m'| < 2 ^ 24 ∧ (m' : ℚ) = signFactor neg * m := by
  cases neg with
  | false => exact ⟨m, hm, by simp [signFactor]⟩
  | true => exact ⟨-m, by rwa [abs_neg], by simp [signFactor]⟩

/-- A pattern's finite value is a signed 24-bit significand times a power of two, in units of 2^-149. -/
theorem value_ofBits {p : Word} {v : ℚ} (h : (F32.ofBits p).value = some v) :
    ∃ (m : Int) (e : Nat), |m| < 2 ^ 24 ∧ v = m * 2 ^ e / 2 ^ 149 := by
  have hf := (p.extractLsb' 0 23).isLt
  rw [← packFields_fields p, ofBits_packFields _ (p.extractLsb' 23 8).isLt hf] at h
  generalize (p.extractLsb' 0 23).toNat = frac, (p.extractLsb' 23 8).toNat = e at h hf
  split_ifs at h
  · cases h
  · cases h
  · obtain ⟨m, hm, hcast⟩ := exists_signed_significand p.msb (m := frac) (by rw [abs_lt]; omega)
    refine ⟨m, 0, hm, ?_⟩
    rw [value_fin] at h
    rw [← Option.some.inj h, hcast, pow_zero, mul_one, Int.cast_natCast]
  · obtain ⟨m, hm, hcast⟩ := exists_signed_significand p.msb (m := (2 ^ 23 + frac : Nat)) (by rw [abs_lt]; omega)
    refine ⟨m, e - 1, hm, ?_⟩
    rw [value_fin] at h
    rw [← Option.some.inj h, hcast]
    push_cast; ring

/-- A rounded number below the overflow bound has a pattern, whose low bit is that of the significand. -/
theorem RoundedUnits.exists_pattern {r : ℚ} {t k : Nat} (h : RoundedUnits r t k) (neg : Bool)
    (hlt : k * 2 ^ t < 2 ^ 24 * 2 ^ 253) :
    ∃ p, F32.ofBits p = .fin neg (k * 2 ^ t) ∧ (k % 2 = 0 → p.getLsbD 0 = false) := by
  have ht := h.exp_le hlt
  obtain hk | hk := Nat.lt_or_ge k (2 ^ 23)
  · -- subnormal
    obtain rfl : t = 0 := by_contra fun ht0 => (h.le_sig ht0).not_gt hk
    refine ⟨packFields neg 0 k, ?_, fun heven => ?_⟩
    · rw [ofBits_packFields neg (by omega) hk, if_neg (by omega), if_pos rfl, pow_zero, Nat.mul_one]
    · rw [getLsbD_zero_packFields neg (by omega) hk, heven]; rfl
  obtain hk24 | rfl := h.sig_le.lt_or_eq
  · have hf : k - 2 ^ 23 < 2 ^ 23 := by omega
    refine ⟨packFields neg (t + 1) (k - 2 ^ 23), ?_, fun heven => ?_⟩
    · rw [ofBits_packFields neg (by omega) hf, if_neg (by omega), if_neg (by omega), Nat.add_sub_cancel' hk,
        Nat.add_sub_cancel]
    · rw [getLsbD_zero_packFields neg (by omega) hf, decide_eq_false (by omega)]
  · -- the significand was rounded up to the next binade
    have ht : t < 253 := (Nat.pow_lt_pow_iff_right (by norm_num)).1 (Nat.lt_of_mul_lt_mul_left hlt)
    refine ⟨packFields neg (t + 2) 0, ?_, fun _ => getLsbD_zero_packFields neg (by omega) (by norm_num)⟩
    rw [ofBits_packFields neg (by omega) (by norm_num), if_neg (by omega), if_neg (by omega)]
    congr 1
    rw [show t + 2 - 1 = t + 1 from rfl, pow_succ 2 t]; omega

/-! The rounding function -/

theorem unitsPerOne_pos : 0 < unitsPerOne := Nat.two_pow_pos 149

theorem cast_unitsPerOne : (unitsPerOne : ℚ) = 2 ^ 149 := Nat.cast_pow 2 149

/-- `rne32` rounds to 24 significant bits, and gives an infinity where that reaches 2^128. -/
theorem rne32_cases (neg : Bool) (num : Nat) {den : Nat} (hden : 0 < den) :
    ∃ t k, RoundedUnits ((num : ℚ) / den) t k ∧
      rne32 neg num den = if k * 2 ^ t < 2 ^ 24 * 2 ^ 253 then .fin neg (k * 2 ^ t) else .inf neg := by
  refine ⟨_, _, roundedUnits_divNearestEven num hden, ?_⟩
  have hbound : (2 : Nat) ^ 24 * 2 ^ 253 = 2 ^ 128 * unitsPerOne := by
    rw [unitsPerOne, ← pow_add, ← pow_add]
  simp only [rne32, hbound, Nat.div_lt_iff_lt_mul unitsPerOne_pos]

/-- The bound of `RoundsTo`, in units of 2^-149. -/
theorem abs_lt_overflow_iff (neg : Bool) {r : ℚ} (hr : 0 ≤ r) :
    |signFactor neg * r / 2 ^ 149| < 2 ^ 128 - 2 ^ 103 ↔ r < (2 ^ 24 - 1 / 2) * 2 ^ 253 := by
  rw [abs_div, abs_mul, abs_signFactor, one_mul, abs_of_nonneg hr, abs_of_pos (by positivity : (0 : ℚ) < 2 ^ 149),
    div_lt_iff₀ (by positivity)]
  norm_num

theorem abs_signFactor_mul_div_sub (neg : Bool) (r u : ℚ) :
    |signFactor neg * r / 2 ^ 149 - u / 2 ^ 149| = |r - signFactor neg * u| / 2 ^ 149 := by
  rw [← sub_div, abs_div, abs_of_pos (by positivity : (0 : ℚ) < 2 ^ 149), ← one_mul |r - _|, ← abs_signFactor neg,
    ← abs_mul, mul_sub, signFactor_mul_cancel]

/-- Below the bound the rounded number is nearest among the values of all patterns. -/
theorem roundsTo_fin {r : ℚ} {t k : Nat} (h : RoundedUnits r t k) (hr : 0 ≤ r) (neg : Bool)
    (hlt : k * 2 ^ t < 2 ^ 24 * 2 ^ 253) :
    RoundsTo (signFactor neg * r / 2 ^ 149) (.fin neg (k * 2 ^ t)) := by
  rw [RoundsTo, if_pos ((abs_lt_overflow_iff neg hr).2 ((h.lt_iff 253).1 hlt))]
  obtain ⟨p, hp, heven⟩ := h.exists_pattern neg hlt
  refine ⟨p, _, hp, value_fin _ _, fun p' v' hv' => ?_⟩
  obtain ⟨m, e, hm, rfl⟩ := value_ofBits hv'
  obtain ⟨m', hm', hcast⟩ := exists_signed_significand neg hm
  obtain ⟨hle, htie⟩ := h.le_abs_sub hm' e
  rw [abs_signFactor_mul_div_sub, abs_signFactor_mul_div_sub, signFactor_mul_cancel, ← mul_assoc, ← hcast,
    Nat.cast_mul, Nat.cast_pow, Nat.cast_ofNat]
  refine ⟨by gcongr, fun hsame => ?_⟩
  refine (htie ((div_left_inj' (by positivity)).1 hsame)).imp (fun hu => ?_) heven
  rw [← hu, hcast, mul_assoc, signFactor_mul_cancel]

/-- From the bound on the infinity has the sign of the exact result (log 12). -/
theorem roundsTo_inf {r : ℚ} {t k : Nat} (h : RoundedUnits r t k) (hr : 0 ≤ r) (neg : Bool)
    (hge : ¬ k * 2 ^ t < 2 ^ 24 * 2 ^ 253) : RoundsTo (signFactor neg * r / 2 ^ 149) (.inf neg) := by
  have hbig : ¬ r < (2 ^ 24 - 1 / 2) * 2 ^ 253 := fun hlt => hge ((h.lt_iff 253).2 hlt)
  rw [RoundsTo, if_neg fun hlt => hbig ((abs_lt_overflow_iff neg hr).1 hlt)]
  have hpos : 0 < r / 2 ^ 149 := div_pos (lt_of_lt_of_le (by norm_num) (not_lt.1 hbig)) (by positivity)
  rw [mul_div_assoc]
  cases neg with
  | false => rw [signFactor, if_neg Bool.false_ne_true, one_mul, decide_eq_false hpos.not_gt]
  | true => rw [signFactor, if_pos rfl, neg_one_mul, decide_eq_true (neg_lt_zero.2 hpos)]

/-- `rne32` rounds the quotient of units it is given (00_scope.md R16). -/
theorem rne32_roundsTo {v : ℚ} {neg : Bool} {num den : Nat} (hden : 0 < den)
    (hv : v = signFactor neg * ((num : ℚ) / den) / 2 ^ 149) : RoundsTo v (rne32 neg num den) := by
  subst hv
  obtain ⟨t, k, h, hrne⟩ := rne32_cases neg num hden
  rw [hrne]
  split_ifs with hlt
  · exact roundsTo_fin h (by positivity) neg hlt
  · exact roundsTo_inf h (by positivity) neg hlt

/-! The four operations -/

theorem rne32_zero (neg : Bool) : rne32 neg 0 1 = .fin neg 0 := by cases neg <;> decide

theorem fadd_roundsTo {x y : F32} {vx vy : ℚ} (hx : x.value = some vx) (hy : y.value = some vy) :
    RoundsTo (vx + vy) (fadd x y) := by
  obtain ⟨a, m, rfl, rfl⟩ := value_eq_some hx
  obtain ⟨b, n, rfl, rfl⟩ := value_eq_some hy
  have hround : ∀ (neg : Bool) (u : Nat), signFactor a * m + signFactor b * n = signFactor neg * u →
      RoundsTo (signFactor a * m / 2 ^ 149 + signFactor b * n / 2 ^ 149) (rne32 neg u 1) := by
    intro neg u hu
    exact rne32_roundsTo Nat.one_pos (by rw [← add_div, hu, Nat.cast_one, div_one])
  simp only [fadd]
  split_ifs with hab hmn hnm
  · subst hab
    exact hround a _ (by push_cast; ring)
  all_goals
    obtain rfl : b = !a := Bool.eq_not.2 (Ne.symm hab)
    rw [signFactor_not] at hround ⊢
  · rw [← rne32_zero]
    exact hround _ _ (by rw [hmn]; simp)
  · exact hround _ _ (by rw [Nat.cast_sub hnm.le]; ring)
  · exact hround _ _ (by rw [Nat.cast_sub (not_lt.1 hnm), signFactor_not]; ring)

theorem value_fneg {y : F32} {v : ℚ} (hy : y.value = some v) : (fneg y).value = some (-v) := by
  obtain ⟨b, n, rfl, rfl⟩ := value_eq_some hy
  rw [fneg, value_fin, signFactor_not, neg_mul, neg_div]

theorem fsub_roundsTo {x y : F32} {vx vy : ℚ} (hx : x.value = some vx) (hy : y.value = some vy) :
    RoundsTo (vx - vy) (fsub x y) := by
  rw [sub_eq_add_neg]
  exact fadd_roundsTo hx (value_fneg hy)

theorem fmul_roundsTo {x y : F32} {vx vy : ℚ} (hx : x.value = some vx) (hy : y.value = some vy) :
    RoundsTo (vx * vy) (fmul x y) := by
  obtain ⟨a, m, rfl, rfl⟩ := value_eq_some hx
  obtain ⟨b, n, rfl, rfl⟩ := value_eq_some hy
  refine rne32_roundsTo unitsPerOne_pos ?_
  rw [signFactor_xor, Nat.cast_mul, cast_unitsPerOne]; ring

theorem fdiv_roundsTo {x y : F32} {vx vy : ℚ} (hx : x.value = some vx) (hy : y.value = some vy) (hne : vy ≠ 0) :
    RoundsTo (vx / vy) (fdiv x y) := by
  obtain ⟨a, m, rfl, rfl⟩ := value_eq_some hx
  obtain ⟨b, n, rfl, rfl⟩ := value_eq_some hy
  have hn : n ≠ 0 := fun hn => hne (by simp [hn])
  simp only [fdiv, if_neg hn]
  refine rne32_roundsTo (Nat.pos_of_ne_zero hn) ?_
  rw [div_div_div_cancel_right₀ (by positivity), ← div_div, mul_div_right_comm, div_signFactor, signFactor_xor,
    Nat.cast_mul, cast_unitsPerOne]
  field_simp

/-- Settles O35: each operation is `rne32` of its exact result. -/
theorem floatOperationsRoundToNearest : Obligations.FloatOperationsRoundToNearest :=
  fun _ _ _ _ hx hy => ⟨fadd_roundsTo hx hy, fsub_roundsTo hx hy, fmul_roundsTo hx hy, fdiv_roundsTo hx hy⟩

end Sys2Proof.Machine
end

section
/-! What one command can do to the state, said once: it records a read of an undefined cell, answers with a few
cells written, or runs a transaction (10_state.md R31, R34, R48). -/

namespace Sys2Proof.Machine

/-! Writes to given cells -/

/-- `m'` is `m` after writes to cells among `cells` only. -/
structure CellWrites (cells : List CellAddr) (m m' : Memory) : Prop where
  wf : m.wf = true → m'.wf = true
  read_of_notMem : ∀ a : CellAddr, a ∉ cells → m'.read a.toNat = m.read a.toNat
  read_ne_none : ∀ k, m.read k ≠ none → m'.read k ≠ none

namespace CellWrites

variable {cells : List CellAddr} {m m' m'' : Memory}

theorem refl (cells : List CellAddr) (m : Memory) : CellWrites cells m m :=
  ⟨id, fun _ _ => rfl, fun _ => id⟩

theorem trans (h : CellWrites cells m m') (h' : CellWrites cells m' m'') : CellWrites cells m m'' where
  wf := h'.wf ∘ h.wf
  read_of_notMem a ha := (h'.read_of_notMem a ha).trans (h.read_of_notMem a ha)
  read_ne_none k := h'.read_ne_none k ∘ h.read_ne_none k

theorem write {a : CellAddr} (ha : a ∈ cells) (m : Memory) (b : Byte) : CellWrites cells m (m.write a.toNat b) where
  wf := Memory.wf_write b a.isLt
  read_of_notMem k hk :=
    Memory.read_write_other m _ _ b fun heq => hk (BitVec.eq_of_toNat_eq heq ▸ ha)
  read_ne_none k hk := by
    rw [Memory.read_write]
    split
    · exact Option.some_ne_none b
    · exact hk

end CellWrites

theorem cellWrites_writeFrom {cells : List CellAddr} (s : State) (a : CellAddr) (bs : List Byte)
    (h : ∀ k, k < bs.length → a + BitVec.ofNat 4 k ∈ cells) :
    CellWrites cells s.image (writeFrom s a bs).image := by
  induction bs generalizing s a with
  | nil => exact .refl ..
  | cons b rest ih =>
    have hfirst : a ∈ cells := by simpa using h 0 (by simp)
    have hrest : ∀ k, k < rest.length → a + 1#4 + BitVec.ofNat 4 k ∈ cells := fun k hk => by
      have hk' := h (k + 1) (by simpa using hk)
      rwa [BitVec.ofNat_add, BitVec.add_comm (BitVec.ofNat 4 k), ← BitVec.add_assoc] at hk'
    exact (CellWrites.write hfirst s.image b).trans (ih (s.setCell a b) (a + 1#4) hrest)

theorem length_splitBytes (n v : Nat) : (splitBytes n v).length = n := by
  induction n with
  | zero => rfl
  | succ n ih => simp [splitBytes, ih]

/-- The cells that hold a quantity. -/
def Quantity.cells (q : Quantity) : List CellAddr :=
  (List.range q.cellCount).map fun k => q.firstCell + BitVec.ofNat 4 k

theorem cellWrites_writeRaw (s : State) (q : Quantity) (v : Int) :
    CellWrites q.cells s.image (writeRaw s q v).image :=
  cellWrites_writeFrom s _ _ fun k hk =>
    List.mem_map_of_mem (List.mem_range.2 (by rwa [length_splitBytes] at hk))

theorem cellWrites_storedImage {cells : List CellAddr} (h : ∀ a, a ∈ cells) (store : Bool) (i : Nat)
    (outs : List Byte) (ans : Nat → Config.BusAnswer) (m : Memory) :
    CellWrites cells m (storedImage store i outs ans m) := by
  induction outs generalizing i ans m with
  | nil => exact .refl ..
  | cons out rest ih =>
    unfold storedImage
    split
    · exact .refl ..
    · refine .trans ?_ (ih ..)
      split
      · exact .write (h _) ..
      · exact .refl ..

/-! Reads of undefined cells -/

theorem cell_eq_none_of_readFrom_eq_error {s : State} {a e : CellAddr} {n : Nat} (h : readFrom s a n = .error e) :
    s.cell e = none := by
  obtain ⟨_, _, _, hnone, _⟩ := readFrom_eq_error h
  exact hnone

theorem cell_eq_none_of_readRaw_eq_error {s : State} {q : Quantity} {e : CellAddr} (h : readRaw s q = .error e) :
    s.cell e = none := by
  unfold readRaw memRead at h
  cases hr : readFrom s q.firstCell q.cellCount with
  | error a => rw [hr] at h; cases h; exact cell_eq_none_of_readFrom_eq_error hr
  | ok bs => rw [hr] at h; cases h

/-- Data exchanges that all succeed leave every cell they store to defined. -/
theorem storedImage_ne_none {i k : Nat} {outs : List Byte} {ans : Nat → Config.BusAnswer} (m : Memory)
    (hok : exchangeCode outs ans = .ok) (hi : i ≤ k) (hk : k < i + outs.length) (h16 : k < 16) :
    (storedImage true i outs ans m).read k ≠ none := by
  induction outs generalizing i ans m with
  | nil => rw [List.length_nil] at hk; omega
  | cons out rest ih =>
    unfold exchangeCode at hok
    unfold storedImage
    cases h0 : ans 0 with
    | fail => rw [h0] at hok; cases hok
    | byte b =>
      rw [h0] at hok
      dsimp only at hok ⊢
      rcases hi.eq_or_lt with rfl | hlt
      · refine (cellWrites_storedImage (cells := cellsWritten .init) (by decide) ..).read_ne_none _ ?_
        simp [Nat.mod_eq_of_lt h16, Memory.read_write_same]
      · exact ih _ hok hlt (by rw [List.length_cons] at hk; omega)

/-- A read transaction that succeeds defines every cell (41_transactions.md R126). -/
theorem readTransaction_cell_ne_none {s : State} (hok : (readTransaction s).1 = .ok) (a : CellAddr) :
    (readTransaction s).2.cell a ≠ none := by
  unfold readTransaction at hok ⊢
  rw [transaction_eq] at hok ⊢
  unfold exchangeCode at hok
  unfold State.cell
  cases h0 : s.busAnswerAt 0 with
  | fail => rw [h0] at hok; cases hok
  | byte b =>
    rw [h0] at hok
    exact storedImage_ne_none _ hok (Nat.zero_le _) (by simpa [readCount] using a.isLt) a.isLt

/-! The outcomes of a command -/

theorem legal_ok (v : Word) : Response.legal ⟨RespCode.ok.bits, v⟩ = true := rfl

theorem legal_value_zero (c : RespCode) : Response.legal ⟨c.bits, 0#32⟩ = true := by cases c <;> rfl

/-- `t` is `s` after a transaction and its response: quiet, with nothing but cells of `cells` written. -/
inductive Transacted (cells : List CellAddr) (s : State) : State → Prop where
  | mk {c : RespCode} {v : Word} {m : Memory} {trace : List BusEvent} {busAnswers : List Config.BusAnswer}
      {exchanges : Nat} (legal : Response.legal ⟨c.bits, v⟩ = true) (writes : CellWrites cells s.image m) :
      Transacted cells s { s with
        image := m
        csAsserted := false
        busHeld := false
        phase := .idle
        txn := none
        trace := trace
        responses := s.responses ++ [⟨c.bits, v⟩]
        busAnswers := busAnswers
        exchanges := exchanges }

/-- What a command that is not INIT can make of `s`, with the writes 10_state.md R34 gives it. -/
inductive ExecOutcome (i : Instr) (s : State) : State → Prop where
  | recorded {a : CellAddr} (undefined : s.cell a = none) : ExecOutcome i s (recordFault (.uninitRead a) s)
  | answered {c : RespCode} {v : Word} {m : Memory} (legal : Response.legal ⟨c.bits, v⟩ = true)
      (writes : CellWrites (cellsWritten i) s.image m) : ExecOutcome i s (respond c v { s with image := m })
  | transacted {t : State} (ran : Transacted (cellsWritten i) s t) : ExecOutcome i s t

section
variable {i : Instr} {s : State}

theorem ExecOutcome.of_raise (c : RespCode) : ExecOutcome i s (raise c s) :=
  .answered (legal_value_zero c) (.refl ..)

theorem ExecOutcome.of_withRead {α : Type} {r : Except CellAddr α} {k : α → State}
    (herror : ∀ a, r = .error a → s.cell a = none) (hok : ∀ v, ExecOutcome i s (k v)) :
    ExecOutcome i s (withRead r s k) := by
  cases r with
  | error a => exact .recorded (herror a rfl)
  | ok v => exact hok v

theorem ExecOutcome.of_readCell {a : CellAddr} {k : Byte → State} (hok : ∀ v, ExecOutcome i s (k v)) :
    ExecOutcome i s (withRead (readCell s a) s k) :=
  .of_withRead (fun _ h => by obtain ⟨hnone, rfl⟩ := readCell_eq_error.1 h; exact hnone) hok

theorem ExecOutcome.of_getFromCell (a : CellAddr) (value : Byte → Word) :
    ExecOutcome i s (getFromCell a value s) :=
  .of_readCell fun v => .answered (legal_ok (value v)) (.refl ..)

theorem ExecOutcome.of_getRaw (q : Quantity) : ExecOutcome i s (getRaw q s) :=
  .of_withRead (fun _ => cell_eq_none_of_readRaw_eq_error) fun r => .answered (legal_ok (signedValue r)) (.refl ..)

theorem ExecOutcome.of_getFloat (q : Quantity) (convert : Quantity → Int → F32) :
    ExecOutcome i s (getFloat q convert s) :=
  .of_withRead (fun _ => cell_eq_none_of_readRaw_eq_error) fun r =>
    .answered (legal_ok (convert q r).bits) (.refl ..)

theorem ExecOutcome.of_setCell {a : CellAddr} (ha : a ∈ cellsWritten i) (b : Byte) :
    ExecOutcome i s (respond .ok 0#32 (s.setCell a b)) :=
  .answered (legal_ok _) (.write ha ..)

theorem ExecOutcome.of_modifyCell {a : CellAddr} (ha : a ∈ cellsWritten i) (change : Byte → Byte) :
    ExecOutcome i s (modifyCell a change s) :=
  .of_readCell fun v => .of_setCell ha (change v)

theorem ExecOutcome.of_setRaw {q : Quantity} (hq : cellsWritten i = q.cells) (v : Int) :
    ExecOutcome i s (setRaw q v s) := by
  unfold setRaw
  rw [writeRaw_eq]
  exact .answered (legal_ok _) (hq ▸ cellWrites_writeRaw s q v)

theorem ExecOutcome.of_setFloat {q : Quantity} (hq : cellsWritten i = q.cells)
    (convert : Quantity → F32 → Option Int) (f : Word) : ExecOutcome i s (setFloat q convert f s) := by
  unfold setFloat
  split
  · exact .of_raise _
  · exact .of_setRaw hq _

end

/-- A transaction and its response; without `store` no cell is written. -/
theorem transacted_transaction {cells : List CellAddr} {c : RespCode} {v : Word} {store : Bool}
    (hstore : store = true → ∀ a, a ∈ cells) (hlegal : Response.legal ⟨c.bits, v⟩ = true) (mode : TxMode)
    (outs : List Byte) (s : State) : Transacted cells s (respond c v (transaction mode outs store s).2) := by
  rw [transaction_eq]
  refine .mk hlegal ?_
  split
  · exact .refl ..
  · cases store with
    | true => exact cellWrites_storedImage (hstore rfl) ..
    | false => rw [storedImage_not_store]; exact .refl ..

theorem transacted_readTransaction {cells : List CellAddr} {c : RespCode} {v : Word}
    (hcells : ∀ a, a ∈ cells) (hlegal : Response.legal ⟨c.bits, v⟩ = true) (s : State) :
    Transacted cells s (respond c v (readTransaction s).2) :=
  transacted_transaction (fun _ => hcells) hlegal ..

/-- INIT configures the line and runs a read transaction (41_transactions.md R120). -/
theorem transacted_of_exec_init {s t : State} (h : exec .init s = .next t) :
    Transacted (cellsWritten .init) (configureLine s) t := by
  cases h
  exact transacted_readTransaction (by decide) (legal_value_zero _) _

/-- The response to a read transaction reads no undefined cell (41_transactions.md R126). -/
theorem refreshResponse_transacted (s : State) :
    Transacted (cellsWritten .refresh) s (refreshResponse (readTransaction s)) := by
  unfold refreshResponse
  split
  · next hok =>
    obtain ⟨b, hb⟩ := Option.ne_none_iff_exists'.1 (readTransaction_cell_ne_none hok 15#4)
    rw [readCell_eq_ok.2 hb]
    exact transacted_readTransaction (by decide) (legal_ok _) s
  · exact transacted_readTransaction (by decide) (legal_value_zero _) s

/-- COMMIT once INIT was done records an undefined cell, or runs a write transaction (41_transactions.md R130). -/
theorem commitFrame_cases (s : State) :
    (∃ a, s.cell a = none ∧ commitFrame s = recordFault (.uninitRead a) s) ∨
      Transacted (cellsWritten .commit) s (commitFrame s) := by
  unfold commitFrame
  cases h0 : readCell s 0#4 with
  | error a =>
    obtain ⟨hnone, rfl⟩ := readCell_eq_error.1 h0
    exact .inl ⟨_, hnone, rfl⟩
  | ok cr0 =>
    rw [withRead_ok]
    cases houts : readFrom s 0#4 (commitCount cr0) with
    | error a => exact .inl ⟨a, cell_eq_none_of_readFrom_eq_error houts, rfl⟩
    | ok outs => exact .inr (transacted_transaction (store := false) nofun (legal_value_zero _) ..)

theorem execOutcome_refresh {s t : State} (h : exec .refresh s = .next t) : ExecOutcome .refresh s t := by
  cases h
  split
  · exact .transacted (refreshResponse_transacted s)
  · exact .of_raise _

theorem execOutcome_commit {s t : State} (h : exec .commit s = .next t) : ExecOutcome .commit s t := by
  cases h
  split
  · rcases commitFrame_cases s with ⟨a, hnone, heq⟩ | htr
    · rw [heq]; exact .recorded hnone
    · exact .transacted htr
  · exact .of_raise _

theorem execOutcome_wrreg {a : CellAddr} {b : Byte} {s t : State} (h : exec (.wrreg a b) s = .next t) :
    ExecOutcome (.wrreg a b) s t := by
  cases h
  split
  · exact .of_raise _
  · next ha =>
    have hlt : a.toNat < 12 := Nat.lt_of_not_le ha
    exact .of_setCell (by simp [cellsWritten, hlt]) b

theorem execOutcome_rstdef {s t : State} (h : exec .rstdef s = .next t) : ExecOutcome .rstdef s t := by
  have hall : ∀ a, a ∈ cellsWritten .rstdef := by decide
  cases h
  rw [writeFrom_eq]
  exact .answered (legal_ok _) (cellWrites_writeFrom _ _ _ fun _ _ => hall _)

/-- Every command but INIT has one of the three outcomes. -/
theorem execOutcome_of_exec {i : Instr} {s t : State} (hi : i ≠ .init) (h : exec i s = .next t) :
    ExecOutcome i s t := by
  cases i with
  | init => exact absurd rfl hi
  | refresh => exact execOutcome_refresh h
  | commit => exact execOutcome_commit h
  | rstdef => exact execOutcome_rstdef h
  | wrreg => exact execOutcome_wrreg h
  | rdreg | getAvg | getTctype | getFaults => cases h; exact .of_getFromCell ..
  | getLtc | getCjt | getLthft | getLtlft | getCjhf | getCjlf | getCjto => cases h; exact .of_getRaw _
  | getcLtc | getcCjt | getcLthft | getcLtlft | getcCjhf | getcCjlf | getcCjto
  | getfLtc | getfCjt | getfLthft | getfLtlft | getfCjhf | getfCjlf | getfCjto => cases h; exact .of_getFloat ..
  | setAvg | setTctype => cases h; exact .of_modifyCell (List.mem_singleton_self _) _
  | setCjt | setLthft | setLtlft | setCjhf | setCjlf | setCjto => cases h; exact .of_setRaw rfl _
  | setcCjt | setcLthft | setcLtlft | setcCjhf | setcCjlf | setcCjto
  | setfCjt | setfLthft | setfLtlft | setfCjhf | setfCjlf | setfCjto => cases h; exact .of_setFloat rfl ..

end Sys2Proof.Machine
end

section
/-! The state's obligations (10_state.md), each from the outcomes of a command. -/

namespace Sys2Proof.Machine

section
variable {i : Instr} {cells : List CellAddr} {s t : State}

/-! What the outcomes keep -/

theorem Transacted.quiescent (h : Transacted cells s t) : Quiescent t := by
  cases h; exact ⟨rfl, rfl, rfl, rfl⟩

theorem Transacted.params (h : Transacted cells s t) : t.params = s.params := by
  cases h; rfl

theorem Transacted.initialized (h : Transacted cells s t) : t.initialized = s.initialized := by
  cases h; rfl

theorem Transacted.csConfigured (h : Transacted cells s t) : t.csConfigured = s.csConfigured := by
  cases h; rfl

theorem Transacted.cellWrites (h : Transacted cells s t) : CellWrites cells s.image t.image := by
  cases h; assumption

theorem ExecOutcome.params (h : ExecOutcome i s t) : t.params = s.params := by
  cases h with
  | recorded => rfl
  | answered => rfl
  | transacted ran => exact ran.params

theorem ExecOutcome.initialized (h : ExecOutcome i s t) : t.initialized = s.initialized := by
  cases h with
  | recorded => rfl
  | answered => rfl
  | transacted ran => exact ran.initialized

theorem ExecOutcome.csConfigured (h : ExecOutcome i s t) : t.csConfigured = s.csConfigured := by
  cases h with
  | recorded => rfl
  | answered => rfl
  | transacted ran => exact ran.csConfigured

theorem ExecOutcome.cellWrites (h : ExecOutcome i s t) : CellWrites (cellsWritten i) s.image t.image := by
  cases h with
  | recorded => exact .refl ..
  | answered _ writes => exact writes
  | transacted ran => exact ran.cellWrites

theorem exec_cellWrites (h : exec i s = .next t) : CellWrites (cellsWritten i) s.image t.image := by
  by_cases hi : i = .init
  · subst hi; exact (transacted_of_exec_init h).cellWrites
  · exact (execOutcome_of_exec hi h).cellWrites

theorem exec_params (h : exec i s = .next t) : t.params = s.params := by
  by_cases hi : i = .init
  · subst hi; exact (transacted_of_exec_init h).params
  · exact (execOutcome_of_exec hi h).params

/-! The invariant -/

theorem all_legal_append {rs : List Response} {r : Response} (hrs : rs.all Response.legal = true)
    (hr : r.legal = true) : (rs ++ [r]).all Response.legal = true := by
  simp [hrs, hr]

theorem Transacted.inv (h : Transacted cells s t) (hs : Inv s) : Inv t := by
  obtain ⟨-, hwf, hlegal, hinit⟩ := hs
  refine ⟨h.quiescent, h.cellWrites.wf hwf, ?_, h.initialized.trans (hinit.trans h.csConfigured.symm)⟩
  cases h with
  | mk legal => exact all_legal_append hlegal legal

theorem ExecOutcome.inv (h : ExecOutcome i s t) (hs : Inv s) : Inv t := by
  obtain ⟨hquiet, hwf, hlegal, hinit⟩ := hs
  cases h with
  | recorded => exact ⟨hquiet, hwf, hlegal, hinit⟩
  | answered legal writes => exact ⟨hquiet, writes.wf hwf, all_legal_append hlegal legal, hinit⟩
  | transacted ran => exact ran.inv ⟨hquiet, hwf, hlegal, hinit⟩

theorem inv_configureLine (hs : Inv s) : Inv (configureLine s) := by
  obtain ⟨⟨hheld, -, hphase, htxn⟩, hwf, hlegal, -⟩ := hs
  exact ⟨⟨hheld, rfl, hphase, htxn⟩, hwf, hlegal, rfl⟩

theorem exec_keeps_inv (hs : Inv s) (h : exec i s = .next t) : Inv t := by
  by_cases hi : i = .init
  · subst hi; exact (transacted_of_exec_init h).inv (inv_configureLine hs)
  · exact (execOutcome_of_exec hi h).inv hs

end

/-- Settles O57: the word taken and an illegal word touch no part of the invariant but the responses, and a command
keeps it by its outcomes. -/
theorem stepKeepsInvariant : Obligations.StepKeepsInvariant := by
  intro s t hs h
  obtain ⟨-, ⟨-, rfl⟩ | ⟨w, rest, i, -, -, hexec⟩ | ⟨w, rest, e, -, -, rfl⟩⟩ := step_cases h
  · exact hs
  · exact exec_keeps_inv (s := { s with commands := rest }) hs hexec
  · obtain ⟨hquiet, hwf, hlegal, hinit⟩ := hs
    exact ⟨hquiet, hwf, all_legal_append hlegal (legal_value_zero .eIllegal), hinit⟩

/-- Settles O16: every outcome of a command writes cells of its row of the table only. -/
theorem commandsWriteOnlyTheirCells : Obligations.CommandsWriteOnlyTheirCells := by
  intro i s t a h ha
  exact (exec_cellWrites h).read_of_notMem a ha

/-- Settles O17: a write never makes a cell undefined, and no outcome changes a parameter. -/
theorem definedCellsStayDefined : Obligations.DefinedCellsStayDefined := by
  intro s t h
  obtain ⟨-, ⟨-, rfl⟩ | ⟨w, rest, i, -, -, hexec⟩ | ⟨w, rest, e, -, -, rfl⟩⟩ := step_cases h
  · exact ⟨rfl, fun _ => id⟩
  · exact ⟨exec_params (s := { s with commands := rest }) hexec, fun a => (exec_cellWrites hexec).read_ne_none a.toNat⟩
  · exact ⟨rfl, fun _ => id⟩

/-- Settles O55: INIT's transaction starts from the configured line and keeps both bits. -/
theorem onlyInitSetsInitialized : Obligations.OnlyInitSetsInitialized := by
  refine ⟨fun s => ?_, fun i s t hi h => ?_⟩
  · have htr := transacted_of_exec_init (s := s) rfl
    exact ⟨_, rfl, htr.initialized, htr.csConfigured⟩
  · have hout := execOutcome_of_exec hi h
    exact ⟨hout.initialized, hout.csConfigured⟩

/-- Settles O59: each of the three ends as a transaction does, whatever state it began in; COMMIT's other path, the
recorded fault, gives no response. -/
theorem transactionsEndReleased : Obligations.TransactionsEndReleased := by
  rintro i s t h (rfl | ⟨hinit, rfl | ⟨rfl, hanswers⟩⟩)
  · exact (transacted_of_exec_init h).quiescent
  · cases h
    rw [if_pos hinit]
    exact (refreshResponse_transacted s).quiescent
  · cases h
    rw [if_pos hinit] at hanswers ⊢
    rcases commitFrame_cases s with ⟨a, -, heq⟩ | htr
    · exact absurd (congrArg State.responses heq) hanswers
    · exact htr.quiescent

/-- Settles O8: reset lists no cell, and every other field is written out in it. -/
theorem resetState : Obligations.ResetState :=
  ⟨fun a => Memory.read_nil a.toNat, rfl, rfl, rfl, rfl, rfl, rfl, rfl, rfl, rfl, rfl, rfl⟩

/-- Settles O58: reset is quiet, with an empty image and no response. -/
theorem resetHasInvariant : Obligations.ResetHasInvariant :=
  ⟨⟨rfl, rfl, rfl, rfl⟩, rfl, rfl, rfl⟩

/-- Settles O60: the four combinations of the active level and the selection. -/
theorem selectLineLevel : Obligations.SelectLineLevel := by
  refine ⟨fun s => ⟨fun hconf => ?_, fun hconf hsel => ?_, fun hconf hsel => ?_⟩, rfl, rfl⟩
  · simp [State.csLevel, hconf]
  · cases hlevel : s.params.csActiveLevel <;> simp [State.csLevel, hconf, hsel, hlevel]
  · cases hlevel : s.params.csActiveLevel <;> simp [State.csLevel, hconf, hsel, hlevel]

end Sys2Proof.Machine
end

section
/-! The exchanges of a frame: how many they are, which of them may fail, and what they do when the environment answers
each with a byte (20_memory.md R71, R78, 41_transactions.md R121, R122). -/

namespace Sys2Proof.Machine

/-! One exchange at a time -/

section
variable {ans : Nat → Config.BusAnswer} {b out : Byte} {rest : List Byte}

theorem exchangeEvents_cons_of_fail (h : ans 0 = .fail) : exchangeEvents (out :: rest) ans = [.xchgFail out] := by
  simp [exchangeEvents, h]

theorem exchangeEvents_cons_of_byte (h : ans 0 = .byte b) :
    exchangeEvents (out :: rest) ans = .xchg out b :: exchangeEvents rest fun k => ans (k + 1) := by
  simp [exchangeEvents, h]

theorem exchangeCode_cons_of_fail (h : ans 0 = .fail) : exchangeCode (out :: rest) ans = .eBus := by
  simp [exchangeCode, h]

theorem exchangeCode_cons_of_byte (h : ans 0 = .byte b) :
    exchangeCode (out :: rest) ans = exchangeCode rest fun k => ans (k + 1) := by
  simp [exchangeCode, h]

theorem storedImage_cons_of_byte (h : ans 0 = .byte b) (i : Nat) (m : Memory) :
    storedImage true i (out :: rest) ans m =
      storedImage true (i + 1) rest (fun k => ans (k + 1)) (m.write (BitVec.ofNat 4 i).toNat b) := by
  simp [storedImage, h]

/-- The first event is the exchange of the first byte, answered or failed. -/
theorem exchangeEvents_cons_eq (out : Byte) (rest : List Byte) (ans : Nat → Config.BusAnswer) :
    ∃ first tail, exchangeEvents (out :: rest) ans = first :: tail ∧ first.sent = some out := by
  cases h0 : ans 0 with
  | fail => exact ⟨_, _, exchangeEvents_cons_of_fail h0, rfl⟩
  | byte b => exact ⟨_, _, exchangeEvents_cons_of_byte h0, rfl⟩

end

/-! The shape of a frame -/

theorem length_exchangeEvents_le (outs : List Byte) (ans : Nat → Config.BusAnswer) :
    (exchangeEvents outs ans).length ≤ outs.length := by
  induction outs generalizing ans with
  | nil => exact Nat.le_refl 0
  | cons out rest ih =>
    cases h0 : ans 0 with
    | fail => simp [exchangeEvents_cons_of_fail h0]
    | byte b => simpa [exchangeEvents_cons_of_byte h0] using ih _

theorem isExchange_of_mem_exchangeEvents {outs : List Byte} {ans : Nat → Config.BusAnswer} {e : BusEvent}
    (he : e ∈ exchangeEvents outs ans) : e.isExchange = true := by
  induction outs generalizing ans with
  | nil => cases he
  | cons out rest ih =>
    cases h0 : ans 0 with
    | fail =>
      rw [exchangeEvents_cons_of_fail h0, List.mem_singleton] at he
      subst he; rfl
    | byte b =>
      rw [exchangeEvents_cons_of_byte h0, List.mem_cons] at he
      obtain rfl | he := he
      · rfl
      · exact ih he

/-- A failed exchange ends the exchanges, so only the last event can be one (41_transactions.md R122). -/
theorem isGoodExchange_of_mem_dropLast {outs : List Byte} {ans : Nat → Config.BusAnswer} {e : BusEvent}
    (he : e ∈ (exchangeEvents outs ans).dropLast) : e.isGoodExchange = true := by
  induction outs generalizing ans with
  | nil => cases he
  | cons out rest ih =>
    cases h0 : ans 0 with
    | fail => rw [exchangeEvents_cons_of_fail h0] at he; cases he
    | byte b =>
      rw [exchangeEvents_cons_of_byte h0] at he
      by_cases hlast : exchangeEvents rest (fun k => ans (k + 1)) = []
      · rw [hlast] at he; cases he
      · rw [List.dropLast_cons_of_ne_nil hlast] at he
        obtain rfl | he := List.mem_cons.1 he
        · rfl
        · exact ih he

theorem addressByte_sent (mode : TxMode) :
    some (addressByte mode 0#4) = some 0x00#8 ∨ some (addressByte mode 0#4) = some 0x80#8 := by
  cases mode with
  | read => exact .inl rfl
  | write => exact .inr rfl

/-- The address exchange and at most sixteen data exchanges make a well-bracketed frame. -/
theorem wellBracketed_frameEvents (mode : TxMode) {outs : List Byte} (ans : Nat → Config.BusAnswer)
    (hlen : outs.length ≤ 16) : WellBracketed (frameEvents (addressByte mode 0#4) outs ans) := by
  obtain ⟨first, tail, hevents, hsent⟩ := exchangeEvents_cons_eq (addressByte mode 0#4) outs ans
  have hcount := length_exchangeEvents_le (addressByte mode 0#4 :: outs) ans
  refine ⟨first, tail, by rw [frameEvents, hevents], hsent ▸ addressByte_sent mode, ?_, ?_, ?_⟩
  · rw [← hevents]; exact hcount.trans (Nat.succ_le_succ hlen)
  · rw [← hevents]; exact fun e => isExchange_of_mem_exchangeEvents
  · rw [← hevents]; exact fun e => isGoodExchange_of_mem_dropLast

theorem transaction_trace (mode : TxMode) (outs : List Byte) (store : Bool) (s : State) :
    (transaction mode outs store s).2.trace =
      s.trace ++ frameEvents (addressByte mode 0#4) outs s.busAnswerAt := by
  rw [transaction_eq]

/-! The bytes sent -/

/-- Exchanges of which none fails send every byte, in order. -/
theorem filterMap_sent_exchangeEvents {outs : List Byte} {ans : Nat → Config.BusAnswer}
    (hok : exchangeCode outs ans = .ok) : (exchangeEvents outs ans).filterMap BusEvent.sent = outs := by
  induction outs generalizing ans with
  | nil => rfl
  | cons out rest ih =>
    cases h0 : ans 0 with
    | fail => rw [exchangeCode_cons_of_fail h0] at hok; cases hok
    | byte b =>
      rw [exchangeCode_cons_of_byte h0] at hok
      rw [exchangeEvents_cons_of_byte h0, List.filterMap_cons_some (f := BusEvent.sent) rfl, ih hok]

theorem filterMap_sent_frameEvents {addr : Byte} {outs : List Byte} {ans : Nat → Config.BusAnswer}
    (hok : exchangeCode (addr :: outs) ans = .ok) :
    (frameEvents addr outs ans).filterMap BusEvent.sent = addr :: outs := by
  rw [frameEvents, List.filterMap_append, List.filterMap_append, filterMap_sent_exchangeEvents hok]
  exact List.append_nil _

/-! Exchanges that are all answered with a byte -/

section
variable {outs ins : List Byte} {ans : Nat → Config.BusAnswer}

theorem exchanges_of_bytes (hlen : ins.length = outs.length) (hins : ∀ k (h : k < ins.length), ans k = .byte ins[k]) :
    exchangeCode outs ans = .ok ∧ exchangeEvents outs ans = List.zipWith BusEvent.xchg outs ins := by
  induction outs generalizing ins ans with
  | nil => exact ⟨rfl, rfl⟩
  | cons out rest ih =>
    cases ins with
    | nil => cases hlen
    | cons b bs =>
      have h0 : ans 0 = .byte b := hins 0 (Nat.succ_pos _)
      obtain ⟨hcode, hevents⟩ := ih (ans := fun k => ans (k + 1)) (Nat.succ.inj hlen)
        fun k hk => hins (k + 1) (Nat.succ_lt_succ hk)
      rw [exchangeCode_cons_of_byte h0, exchangeEvents_cons_of_byte h0, hevents]
      exact ⟨hcode, rfl⟩

/-- A transaction whose every exchange is answered with a byte: it succeeds, and its frame pairs the bytes sent with
those received (41_transactions.md R121). -/
theorem transaction_of_bytes {s : State} {a0 : Byte} (mode : TxMode) (store : Bool)
    (hlen : ins.length = outs.length) (h0 : s.busAnswerAt 0 = .byte a0)
    (hins : ∀ k (h : k < ins.length), s.busAnswerAt (k + 1) = .byte ins[k]) :
    (transaction mode outs store s).1 = .ok ∧
      (transaction mode outs store s).2.trace =
        s.trace ++ ([.acquire, .select, .xchg (addressByte mode 0#4) a0] ++
          List.zipWith BusEvent.xchg outs ins ++ [.deselect, .release]) := by
  obtain ⟨hcode, hevents⟩ := exchanges_of_bytes (ans := fun k => s.busAnswerAt (k + 1)) hlen hins
  constructor
  · rw [transaction_eq]
    exact (exchangeCode_cons_of_byte (out := addressByte mode 0#4) h0).trans hcode
  · rw [transaction_trace, frameEvents, exchangeEvents_cons_of_byte h0, hevents]
    rfl

theorem toNat_ofNat_cell {i : Nat} (h : i < 16) : (BitVec.ofNat 4 i).toNat = i := by
  rw [BitVec.toNat_ofNat]; exact Nat.mod_eq_of_lt h

/-- The data exchanges from byte `i` on store to no cell below `i`. -/
theorem read_storedImage_of_lt {i k : Nat} (hk : k < i) (h16 : i + outs.length ≤ 16) (m : Memory) :
    (storedImage true i outs ans m).read k = m.read k := by
  induction outs generalizing i ans m with
  | nil => rfl
  | cons out rest ih =>
    rw [List.length_cons] at h16
    cases h0 : ans 0 with
    | fail => simp [storedImage, h0]
    | byte b =>
      rw [storedImage_cons_of_byte h0, ih (Nat.lt_succ_of_lt hk) (by omega), Memory.read_write_other]
      rw [toNat_ofNat_cell (by omega)]
      exact hk.ne

/-- Each data byte received is in its cell when the exchanges end (41_transactions.md R121). -/
theorem read_storedImage_of_bytes {i : Nat} (hlen : ins.length = outs.length) (h16 : i + outs.length ≤ 16)
    (hins : ∀ k (h : k < ins.length), ans k = .byte ins[k]) (m : Memory) (k : Nat) (hk : k < ins.length) :
    (storedImage true i outs ans m).read (i + k) = some ins[k] := by
  induction outs generalizing ins i ans m k with
  | nil => rw [hlen] at hk; cases hk
  | cons out rest ih =>
    cases ins with
    | nil => cases hk
    | cons b bs =>
      rw [List.length_cons] at h16
      rw [storedImage_cons_of_byte (hins 0 (Nat.succ_pos _))]
      cases k with
      | zero =>
        rw [Nat.add_zero i, toNat_ofNat_cell (by omega), read_storedImage_of_lt (by omega) (by omega)]
        exact Memory.read_write_same ..
      | succ k =>
        rw [show i + (k + 1) = i + 1 + k by omega]
        exact ih (Nat.succ.inj hlen) (by omega) (fun j hj => hins (j + 1) (Nat.succ_lt_succ hj)) _ k
          (Nat.lt_of_succ_lt_succ hk)

end

/-- A read transaction whose every exchange is answered with a byte stores the bytes in the cells
(41_transactions.md R121, R126). -/
theorem readTransaction_cell_of_bytes {s : State} {a0 : Byte} {rs : List Byte} (h16 : rs.length = 16)
    (h0 : s.busAnswerAt 0 = .byte a0) (hrs : ∀ k (h : k < rs.length), s.busAnswerAt (k + 1) = .byte rs[k])
    (k : Nat) (hk : k < rs.length) : (readTransaction s).2.cell (BitVec.ofNat 4 k) = some rs[k] := by
  have hstored := read_storedImage_of_bytes (i := 0) (outs := List.replicate readCount s.params.readFill)
    (by simpa [readCount] using h16) (by simp [readCount]) hrs s.image k hk
  rw [Nat.zero_add] at hstored
  unfold State.cell readTransaction
  rw [transaction_eq, toNat_ofNat_cell (h16 ▸ hk)]
  simpa [h0] using hstored

end Sys2Proof.Machine
end

section
/-! What a command adds to the trace, and what a COMMIT sends (20_memory.md R67, R70, R71, R78). -/

namespace Sys2Proof.Machine

/-! The commands that call no bus -/

/-- `t` is `s` with at most the image, the responses and the fault record changed. -/
def RegistersOnly (s t : State) : Prop :=
  t = { s with image := t.image, responses := t.responses, faultRecord := t.faultRecord }

section
variable {s t : State}

theorem RegistersOnly.trace (h : RegistersOnly s t) : t.trace = s.trace := by
  rw [h]

theorem RegistersOnly.of_withRead {α : Type} {r : Except CellAddr α} {k : α → State}
    (hk : ∀ v, RegistersOnly s (k v)) : RegistersOnly s (withRead r s k) := by
  cases r with
  | error a => rfl
  | ok v => exact hk v

theorem RegistersOnly.of_getFromCell (a : CellAddr) (value : Byte → Word) (s : State) :
    RegistersOnly s (getFromCell a value s) := .of_withRead fun _ => rfl

theorem RegistersOnly.of_modifyCell (a : CellAddr) (change : Byte → Byte) (s : State) :
    RegistersOnly s (modifyCell a change s) := .of_withRead fun _ => rfl

theorem RegistersOnly.of_getRaw (q : Quantity) (s : State) : RegistersOnly s (getRaw q s) :=
  .of_withRead fun _ => rfl

theorem RegistersOnly.of_getFloat (q : Quantity) (convert : Quantity → Int → F32) (s : State) :
    RegistersOnly s (getFloat q convert s) := .of_withRead fun _ => rfl

theorem RegistersOnly.of_setRaw (q : Quantity) (v : Int) (s : State) : RegistersOnly s (setRaw q v s) := by
  rw [setRaw_eq]; rfl

theorem RegistersOnly.of_setFloat (q : Quantity) (convert : Quantity → F32 → Option Int) (f : Word) (s : State) :
    RegistersOnly s (setFloat q convert f s) := by
  rcases setFloat_cases (q := q) (c := convert) (f := f) (s := s) rfl with ⟨-, h⟩ | ⟨n, -, h⟩
  · rw [h]; rfl
  · rw [h]; exact .of_setRaw q n s

theorem registersOnly_wrreg {a : CellAddr} {b : Byte} (h : exec (.wrreg a b) s = .next t) : RegistersOnly s t := by
  cases h
  split <;> rfl

theorem registersOnly_rstdef (h : exec .rstdef s = .next t) : RegistersOnly s t := by
  cases h
  rw [writeFrom_eq]; rfl

/-- A command that calls no bus changes at most the image, the responses and the fault record
(41_transactions.md R137). -/
theorem registersOnly_of_exec {i : Instr} (hi : callsBus i = false) (h : exec i s = .next t) :
    RegistersOnly s t := by
  cases i with
  | init | refresh | commit => cases hi
  | rstdef => exact registersOnly_rstdef h
  | wrreg => exact registersOnly_wrreg h
  | rdreg | getAvg | getTctype | getFaults => cases h; exact .of_getFromCell ..
  | setAvg | setTctype => cases h; exact .of_modifyCell ..
  | getLtc | getCjt | getLthft | getLtlft | getCjhf | getCjlf | getCjto => cases h; exact .of_getRaw ..
  | getcLtc | getcCjt | getcLthft | getcLtlft | getcCjhf | getcCjlf | getcCjto
  | getfLtc | getfCjt | getfLthft | getfLtlft | getfCjhf | getfCjlf | getfCjto => cases h; exact .of_getFloat ..
  | setCjt | setLthft | setLtlft | setCjhf | setCjlf | setCjto => cases h; exact .of_setRaw ..
  | setcCjt | setcLthft | setcLtlft | setcCjhf | setcCjlf | setcCjto
  | setfCjt | setfLthft | setfLtlft | setfCjhf | setfCjlf | setfCjto => cases h; exact .of_setFloat ..

end

/-! REFRESH and COMMIT -/

/-- The response to a read transaction touches only the responses and the fault record. -/
theorem refreshResponse_eq (r : RespCode × State) :
    refreshResponse r =
      { r.2 with
        responses := (refreshResponse r).responses
        faultRecord := (refreshResponse r).faultRecord } := by
  unfold refreshResponse
  split
  · cases readCell r.2 15#4 <;> rfl
  · rfl

@[simp] theorem refreshResponse_trace (r : RespCode × State) : (refreshResponse r).trace = r.2.trace := by
  rw [refreshResponse_eq]

@[simp] theorem refreshResponse_cell (r : RespCode × State) (a : CellAddr) :
    (refreshResponse r).cell a = r.2.cell a :=
  cell_congr (by rw [refreshResponse_eq]) a

theorem exec_refresh_of_initialized {s : State} (h : s.initialized = true) :
    exec .refresh s = .next (refreshResponse (readTransaction s)) :=
  congrArg _ (if_pos h)

/-- COMMIT's write transaction of `outs`, with its response (41_transactions.md R132). -/
def commitSend (outs : List Byte) (s : State) : State :=
  respond (transaction .write outs false s).1 0#32 (transaction .write outs false s).2

/-- The bytes COMMIT sends from `s` after the address byte: the cells from 0 on, as many as cell 0 says
(41_transactions.md R130, R131). -/
def CommitReads (s : State) (outs : List Byte) : Prop :=
  ∃ cr0, s.cell 0#4 = some cr0 ∧ readFrom s 0#4 (commitCount cr0) = .ok outs

section
variable {s t : State} {outs : List Byte}

theorem exec_commit_of_reads (hinit : s.initialized = true) (h : CommitReads s outs) :
    exec .commit s = .next (commitSend outs s) := by
  obtain ⟨cr0, hcr0, houts⟩ := h
  have hframe : commitFrame s = commitSend outs s := by
    rw [commitFrame, readCell_eq_ok.2 hcr0, withRead_ok, houts, withRead_ok, commitSend]
  exact congrArg _ ((if_pos hinit).trans hframe)

/-- COMMIT is refused before INIT, records an undefined cell, or sends the cells it read. -/
theorem exec_commit_cases (h : exec .commit s = .next t) :
    t = raise .eNotinit s ∨ (∃ a, t = recordFault (.uninitRead a) s) ∨
      ∃ outs, CommitReads s outs ∧ t = commitSend outs s := by
  cases h
  split
  · rcases withRead_cases (t := commitFrame s) rfl with ⟨a, -, h0⟩ | ⟨cr0, hcr0, h0⟩
    · exact .inr (.inl ⟨a, h0⟩)
    rcases withRead_cases h0.symm with ⟨a, -, h1⟩ | ⟨outs, houts, h1⟩
    · exact .inr (.inl ⟨a, h1⟩)
    · exact .inr (.inr ⟨outs, ⟨cr0, readCell_eq_ok.1 hcr0, houts⟩, h1⟩)
  · exact .inl rfl

theorem commitCount_le (cr0 : Byte) : commitCount cr0 ≤ 16 := by
  unfold commitCount
  split <;> decide

theorem CommitReads.length_le (h : CommitReads s outs) : outs.length ≤ 16 := by
  obtain ⟨cr0, -, houts⟩ := h
  obtain ⟨hlen, -⟩ := readFrom_eq_ok.1 houts
  exact hlen ▸ commitCount_le cr0

/-- The bytes COMMIT sends depend on the image alone. -/
theorem CommitReads.unique {s' : State} {outs' : List Byte} (h : CommitReads s outs) (h' : CommitReads s' outs')
    (himage : s'.image = s.image) : outs = outs' := by
  obtain ⟨cr0, hcr0, houts⟩ := h
  obtain ⟨cr0', hcr0', houts'⟩ := h'
  obtain rfl : cr0 = cr0' := Option.some.inj (hcr0.symm.trans ((cell_congr himage 0#4).symm.trans hcr0'))
  have hmoved : readFrom s' 0#4 (commitCount cr0) = .ok outs :=
    readFrom_eq_ok.2 (by simpa only [cell_congr himage] using readFrom_eq_ok.1 houts)
  exact Except.ok.inj (hmoved.symm.trans houts')

theorem commitSend_trace (outs : List Byte) (s : State) :
    (commitSend outs s).trace = s.trace ++ frameEvents 0x80#8 outs s.busAnswerAt :=
  transaction_trace .write outs false s

theorem commitSend_image (outs : List Byte) (s : State) : (commitSend outs s).image = s.image := by
  rw [commitSend, respond_image, transaction_eq]
  split
  · rfl
  · rw [storedImage_not_store]

theorem commitSend_responses (outs : List Byte) (s : State) :
    (commitSend outs s).responses =
      s.responses ++ [⟨(exchangeCode (0x80#8 :: outs) s.busAnswerAt).bits, 0#32⟩] := by
  rw [commitSend, respond_responses, transaction_eq]; rfl

theorem RespCode.eq_ok_of_bits_eq_zero {c : RespCode} (h : c.bits = 0#3) : c = .ok := by
  cases c with
  | ok => rfl
  | eIllegal | eReadonly | eNotinit | eBus | eFpdomain => cases h

/-- A COMMIT that answers `OK` sent 0x80 and the cells it read, and kept the image (41_transactions.md R132). -/
theorem commit_answered_ok (h : exec .commit s = .next t) (hok : t.responses = s.responses ++ [⟨0#3, 0#32⟩]) :
    t.image = s.image ∧ ∃ outs, CommitReads s outs ∧
      (t.trace.drop s.trace.length).filterMap BusEvent.sent = 0x80#8 :: outs := by
  rcases exec_commit_cases h with rfl | ⟨a, rfl⟩ | ⟨outs, hreads, rfl⟩
  · cases List.append_cancel_left hok
  · simp at hok
  · rw [commitSend_responses] at hok
    have hresponse := List.singleton_inj.1 (List.append_cancel_left hok)
    have hcode := RespCode.eq_ok_of_bits_eq_zero (congrArg Response.code hresponse)
    refine ⟨commitSend_image outs s, outs, hreads, ?_⟩
    rw [commitSend_trace, List.drop_left]
    exact filterMap_sent_frameEvents hcode

end

/-! The growth of the trace -/

/-- The trace of `t` is that of `s`, or has one well-bracketed frame more (20_memory.md R71). -/
def GrowsByFrame (s t : State) : Prop :=
  t.trace = s.trace ∨ ∃ evs, t.trace = s.trace ++ evs ∧ WellBracketed evs

section
variable {s t : State}

theorem growsByFrame_of_transaction {mode : TxMode} {outs : List Byte} {store : Bool} (hlen : outs.length ≤ 16)
    (h : t.trace = (transaction mode outs store s).2.trace) : GrowsByFrame s t :=
  .inr ⟨_, h.trans (transaction_trace ..), wellBracketed_frameEvents mode _ hlen⟩

theorem growsByFrame_of_readTransaction (h : t.trace = (readTransaction s).2.trace) : GrowsByFrame s t :=
  growsByFrame_of_transaction (by simp [readCount]) h

theorem growsByFrame_refresh (h : exec .refresh s = .next t) : GrowsByFrame s t := by
  cases h
  split
  · exact growsByFrame_of_readTransaction (refreshResponse_trace _)
  · exact .inl rfl

theorem growsByFrame_commit (h : exec .commit s = .next t) : GrowsByFrame s t := by
  rcases exec_commit_cases h with rfl | ⟨a, rfl⟩ | ⟨outs, hreads, rfl⟩
  · exact .inl rfl
  · exact .inl rfl
  · exact growsByFrame_of_transaction hreads.length_le rfl

theorem growsByFrame_of_exec {i : Instr} (h : exec i s = .next t) : GrowsByFrame s t := by
  cases hi : callsBus i with
  | false => exact .inl (registersOnly_of_exec hi h).trace
  | true =>
    cases i with
    | init => cases h; exact growsByFrame_of_readTransaction (s := configureLine s) rfl
    | refresh => exact growsByFrame_refresh h
    | commit => exact growsByFrame_commit h
    | _ => cases hi

end

/-- Settles O56: a command that calls no bus keeps the trace, and each of the three others adds the frame of its one
transaction. -/
theorem traceGrowsByFrames : Obligations.TraceGrowsByFrames := by
  intro s t h
  obtain ⟨-, ⟨-, rfl⟩ | ⟨w, rest, i, -, -, hexec⟩ | ⟨w, rest, e, -, -, rfl⟩⟩ := step_cases h
  · exact .inl rfl
  · exact growsByFrame_of_exec (s := { s with commands := rest }) hexec
  · exact .inl rfl

/-- After a REFRESH that received `rs`, COMMIT reads the first of `rs`, as many as `rs[0]` says (20_memory.md R78). -/
theorem commitReads_of_refresh {s t : State} {a0 : Byte} {rs : List Byte} (h16 : rs.length = 16)
    (hinit : s.initialized = true) (h0 : s.busAnswerAt 0 = .byte a0)
    (hrs : ∀ k (h : k < rs.length), s.busAnswerAt (k + 1) = .byte rs[k]) (h : exec .refresh s = .next t) :
    CommitReads t (rs.take (commitCount rs[0])) := by
  rw [exec_refresh_of_initialized hinit] at h
  cases h
  have hcell : ∀ k (hk : k < rs.length),
      (refreshResponse (readTransaction s)).cell (BitVec.ofNat 4 k) = some rs[k] := fun k hk =>
    (refreshResponse_cell ..).trans (readTransaction_cell_of_bytes h16 h0 hrs k hk)
  have hcount : commitCount rs[0] ≤ rs.length := (commitCount_le _).trans h16.ge
  refine ⟨rs[0], hcell 0 (by omega), readFrom_eq_ok.2 ⟨List.length_take_of_le hcount, fun k hk => ?_⟩⟩
  rw [BitVec.zero_add, List.getElem_take]
  exact hcell k _

/-- Settles O52: REFRESH leaves the bytes received in the cells COMMIT reads, and COMMIT's frame pairs the cells it
read with the bytes it receives. -/
theorem refreshThenCommitRoundTrip : Obligations.RefreshThenCommitRoundTrip := by
  intro s t a0 b0 rs ins h16 hinit h0 hrs hrefresh hb0 hlen hins
  have hreads := commitReads_of_refresh h16 hinit h0 hrs hrefresh
  have htinit : t.initialized = true :=
    (execOutcome_of_exec (by decide) hrefresh).initialized.trans hinit
  have hcount : commitCount rs[0] = ins.length := hlen.symm
  rw [hcount] at hreads
  have htaken : ins.length = (rs.take ins.length).length := by
    rw [List.length_take_of_le (hcount ▸ (commitCount_le _).trans h16.ge)]
  obtain ⟨hcode, htrace⟩ := transaction_of_bytes .write false htaken hb0 hins
  refine ⟨_, exec_commit_of_reads htinit hreads, ?_, htrace⟩
  rw [commitSend, hcode, transaction_eq]; rfl

/-- Settles O53: each of the two sends 0x80 and then what it reads of the same image, since COMMIT keeps the image. -/
theorem commitIsRepeatable : Obligations.CommitIsRepeatable := by
  intro s t t' u hfirst hfirstOk himage hsecond hsecondOk
  obtain ⟨hkept, outs, hreads, hsent⟩ := commit_answered_ok hfirst hfirstOk
  obtain ⟨-, outs', hreads', hsent'⟩ := commit_answered_ok hsecond hsecondOk
  rw [hsent, hsent', hreads.unique hreads' (himage.trans hkept)]

/-- Settles O6: with the fault record empty, the word is taken from the list and decoded. -/
theorem stepRunsDecodedCommand : Obligations.StepRunsDecodedCommand := by
  intro s w rest i hfault hcommands hdecode
  simp [step, takeCommand, hfault, hcommands, hdecode]

end Sys2Proof.Machine
end

section
/-! The command word by its fields: a word is determined by them, and the mask of a format asks exactly for the fields
the format does not use to be 0 (30_encoding.md R80, R81). -/

namespace Sys2Proof

/-! A word and its fields -/

/-- `DATA[31:8]`, bits 47:24, which format AB keeps at 0 (30_encoding.md R80). -/
def dataHighField (w : CmdWord) : BitVec 24 := w.extractLsb' 24 24

theorem append_dataField (w : CmdWord) : dataHighField w ++ byteField w = dataField w :=
  BitVec.extractLsb'_append_extractLsb'_eq_extractLsb' (start₁ := 16) (len₁ := 8) rfl

theorem append_fields (w : CmdWord) : dataField w ++ rsvField w ++ addrField w ++ opField w = w := by
  have hrsv : dataField w ++ rsvField w = w.extractLsb' 12 36 :=
    BitVec.extractLsb'_append_extractLsb'_eq_extractLsb' (start₁ := 12) (len₁ := 4) rfl
  have haddr : w.extractLsb' 12 36 ++ addrField w = w.extractLsb' 8 40 :=
    BitVec.extractLsb'_append_extractLsb'_eq_extractLsb' (start₁ := 8) (len₁ := 4) rfl
  rw [hrsv, haddr]
  exact BitVec.extractLsb'_append_extractLsb'

@[simp] theorem dataHighField_assemble (op : Byte) (a : CellAddr) (d : Word) :
    dataHighField (assemble op a d) = d.extractLsb' 8 24 :=
  dataHigh_assemble op a d

theorem dataField_eq_iff {w w' : CmdWord} :
    dataField w = dataField w' ↔ dataHighField w = dataHighField w' ∧ byteField w = byteField w' := by
  rw [← append_dataField, ← append_dataField]
  constructor
  · intro h
    have hhigh := congrArg (BitVec.extractLsb' 8 24) h
    have hbyte := congrArg (BitVec.extractLsb' 0 8) h
    rw [BitVec.extractLsb'_append_eq_left, BitVec.extractLsb'_append_eq_left] at hhigh
    rw [BitVec.extractLsb'_append_eq_right, BitVec.extractLsb'_append_eq_right] at hbyte
    exact ⟨hhigh, hbyte⟩
  · rintro ⟨hhigh, hbyte⟩
    rw [hhigh, hbyte]

theorem eq_iff_fields {w w' : CmdWord} :
    w = w' ↔ opField w = opField w' ∧ addrField w = addrField w' ∧ rsvField w = rsvField w' ∧
      dataField w = dataField w' := by
  constructor
  · rintro rfl; exact ⟨rfl, rfl, rfl, rfl⟩
  · rintro ⟨hop, haddr, hrsv, hdata⟩
    rw [← append_fields w, ← append_fields w', hop, haddr, hrsv, hdata]

/-- The byte operand of format AB is what `encode` puts into the data (30_encoding.md R83). -/
@[simp] theorem byteField_assemble_setWidth (op : Byte) (a : CellAddr) (b : Byte) :
    byteField (assemble op a (b.setWidth 32)) = b := by
  rw [byteField_assemble, ← BitVec.setWidth_eq_extractLsb' (by omega)]
  exact BitVec.setWidth_setWidth_of_le b (by omega)

/-- The format checks by the names of the fields (30_encoding.md R81). -/
theorem wellFormedAs_eq_fields (fmt : Format) (w : CmdWord) :
    CmdWord.wellFormedAs fmt w =
      match fmt with
      | .n => addrField w == 0#4 && rsvField w == 0#4 && dataField w == 0#32
      | .a => rsvField w == 0#4 && dataField w == 0#32
      | .ab => rsvField w == 0#4 && dataHighField w == 0#24
      | .i => addrField w == 0#4 && rsvField w == 0#4
      | .f => addrField w == 0#4 && rsvField w == 0#4 := by
  cases fmt <;> rfl

/-! The masks -/

theorem setWidth_eq_assemble (op : Byte) : op.setWidth 48 = assemble op 0#4 0#32 := by
  apply BitVec.eq_of_getLsbD_eq
  intro i hi
  rw [getLsbD_assemble, BitVec.getLsbD_setWidth]
  split_ifs with hop
  · simp [hi]
  all_goals simp [BitVec.getLsbD_of_ge op i (Nat.not_lt.1 hop)]

/-- Masking leaves `OP` and the fields the format does not use, so the match is that these fields are 0
(30_encoding.md R81). -/
theorem mask_eq_iff_wellFormedAs (fmt : Format) (w : CmdWord) :
    w &&& fmt.mask = (opField w).setWidth 48 ↔ CmdWord.wellFormedAs fmt w = true := by
  have hdata : dataField w = 0#32 ↔ dataHighField w = 0#24 ∧ byteField w = 0#8 := dataField_eq_iff (w' := 0#48)
  have hall4 (x : BitVec 4) : x &&& 15#4 = x := BitVec.and_allOnes
  have hall8 (x : BitVec 8) : x &&& 255#8 = x := BitVec.and_allOnes
  have hall24 (x : BitVec 24) : x &&& 16777215#24 = x := BitVec.and_allOnes
  rw [setWidth_eq_assemble, eq_iff_fields, dataField_eq_iff, opField_assemble, addrField_assemble, rsvField_assemble,
    byteField_assemble, dataHighField_assemble]
  unfold opField addrField rsvField byteField dataHighField
  unfold dataField dataHighField byteField at hdata
  cases fmt <;>
    simp [CmdWord.wellFormedAs, Format.mask, BitVec.extractLsb'_and, hall4, hall8, hall24, hdata, and_assoc]

/-! The words of a format -/

/-- The word with the given opcode whose other fields are the operands, as far as the format uses them
(30_encoding.md R80, R81). -/
def Format.fill (fmt : Format) (op : Byte) (a : CellAddr) (b : Byte) (d : Word) : CmdWord :=
  match fmt with
  | .n => assemble op 0#4 0#32
  | .a => assemble op a 0#32
  | .ab => assemble op a (b.setWidth 32)
  | .i => assemble op 0#4 d
  | .f => assemble op 0#4 d

theorem wellFormedAs_fill (fmt : Format) (op : Byte) (a : CellAddr) (b : Byte) (d : Word) :
    CmdWord.wellFormedAs fmt (fmt.fill op a b d) = true := by
  cases fmt <;> simp [Format.fill, wellFormedAs_assemble, dataHigh_setWidth]

theorem setWidth_byteField_of_dataHighField_eq_zero {w : CmdWord} (h : dataHighField w = 0#24) :
    (byteField w).setWidth 32 = dataField w := by
  rw [← append_dataField, h]
  exact BitVec.setWidth_eq_append (by omega)

/-- A word whose unused fields are 0 is filled from its own fields; only format AB, which uses a part of `DATA`, needs
more than the checks themselves. -/
theorem fill_of_wellFormedAs {fmt : Format} {w : CmdWord} (h : CmdWord.wellFormedAs fmt w = true) :
    fmt.fill (opField w) (addrField w) (byteField w) (dataField w) = w := by
  have hbyte := setWidth_byteField_of_dataHighField_eq_zero (w := w)
  rw [wellFormedAs_eq_fields] at h
  rw [eq_iff_fields]
  cases fmt <;> simp_all [Format.fill]

end Sys2Proof
end

section
/-! The rows of the opcode map: each command is the row of its opcode, and the opcodes without a row are those of
R89 (30_encoding.md R87, R89). -/

namespace Sys2Proof

section
variable {op : Byte} {a : CellAddr} {b : Byte} {d : Word} {i : Instr}

/-- The row found has the opcode looked for: one case per row of the map. -/
theorem opcode_of_rowOf (h : rowOf op a b d = some i) : i.opcode = op := by
  unfold rowOf at h
  split at h
  all_goals cases h
  all_goals exact BitVec.eq_of_toNat_eq (Eq.symm ‹_›)

/-- The row of a command's opcode has the command's format, whatever the operands. -/
theorem exists_rowOf_opcode (i : Instr) (a : CellAddr) (b : Byte) (d : Word) :
    ∃ j, rowOf i.opcode a b d = some j ∧ j.format = i.format := by
  cases i <;> exact ⟨_, rfl, rfl⟩

theorem not_illegalOpcode_opcode (i : Instr) : ¬ Machine.illegalOpcode i.opcode := by
  cases i <;> simp [Machine.illegalOpcode, Instr.opcode]

/-- The opcodes without a row are the ranges of R89: no row's opcode is in them, and they leave no other out. -/
theorem rowOf_eq_none_iff : rowOf op a b d = none ↔ Machine.illegalOpcode op := by
  constructor
  · intro h
    have hzero : op = 0#8 ↔ op.toNat = 0 := BitVec.toNat_inj.symm
    have hlt := op.isLt
    unfold rowOf at h
    split at h
    any_goals contradiction
    -- the catch-all row is left, with the opcode unequal to each of the map's
    simp only [imp_false] at *
    rw [Machine.illegalOpcode, hzero]
    omega
  · intro h
    by_contra hrow
    obtain ⟨i, hi⟩ := Option.ne_none_iff_exists'.1 hrow
    exact not_illegalOpcode_opcode i (opcode_of_rowOf hi ▸ h)

/-- A command found in the map is encoded in its format from what it was found with. -/
theorem encode_of_rowOf (h : rowOf op a b d = some i) : encode i = i.format.fill op a b d := by
  obtain rfl := opcode_of_rowOf h
  cases i <;> cases h <;> rfl

end

/-- The fields of the encoded word are the command's opcode and operands, which the opcode's row puts together again. -/
theorem rowOf_encode (i : Instr) :
    rowOf (opField (encode i)) (addrField (encode i)) (byteField (encode i)) (dataField (encode i)) = some i := by
  cases i <;> simp [encode] <;> rfl

theorem wellFormedAs_encode (i : Instr) : CmdWord.wellFormedAs i.format (encode i) = true := by
  rw [encode_of_rowOf (rowOf_encode i)]
  exact wellFormedAs_fill ..

end Sys2Proof
end

section
/-! The obligations on the encoding, each from the two things the decoder asks of a word: a row for its opcode, and the
fields the row's format does not use to be 0 (30_encoding.md R81, R86). -/

namespace Sys2Proof

/-! The decoder -/

/-- The row a word's opcode selects, with the operands the word carries (30_encoding.md R86, R87). -/
def rowOfWord (w : CmdWord) : Option Instr := rowOf (opField w) (addrField w) (byteField w) (dataField w)

section
variable {w : CmdWord} {i : Instr}

theorem decode_of_rowOfWord_none (h : rowOfWord w = none) : decode w = .error (.unknownOpcode (opField w)) := by
  unfold rowOfWord at h
  simp only [decode, h]

theorem decode_of_rowOfWord_some (h : rowOfWord w = some i) :
    decode w = if CmdWord.wellFormedAs i.format w = true then .ok i else .error (.mustBeZero (opField w)) := by
  unfold rowOfWord at h
  simp only [decode, h, mask_eq_iff_wellFormedAs]

theorem decode_eq_ok_iff : decode w = .ok i ↔ rowOfWord w = some i ∧ CmdWord.wellFormedAs i.format w = true := by
  cases hrow : rowOfWord w with
  | none => simp [decode_of_rowOfWord_none hrow]
  | some j =>
    rw [decode_of_rowOfWord_some hrow, Option.some_inj]
    constructor
    · intro h
      split at h
      · next hwf => cases h; exact ⟨rfl, hwf⟩
      · cases h
    · rintro ⟨rfl, hwf⟩
      exact if_pos hwf

theorem decode_of_illegalOpcode (h : Machine.illegalOpcode (opField w)) :
    decode w = .error (.unknownOpcode (opField w)) :=
  decode_of_rowOfWord_none (rowOf_eq_none_iff.2 h)

/-- A nonzero must-be-zero field rejects the word, whichever command of the opcode shows it (30_encoding.md R81). -/
theorem decode_of_not_wellFormedAs (hop : i.opcode = opField w) (h : CmdWord.wellFormedAs i.format w = false) :
    decode w = .error (.mustBeZero (opField w)) := by
  obtain ⟨j, hrow, hformat⟩ := exists_rowOf_opcode i (addrField w) (byteField w) (dataField w)
  rw [hop] at hrow
  rw [← hformat] at h
  rw [decode_of_rowOfWord_some hrow, h, if_neg Bool.false_ne_true]

theorem illegalWord_of_decode_eq_error {e : Reject} (h : decode w = .error e) : Machine.illegalWord w := by
  cases hrow : rowOfWord w with
  | none => exact .inl (rowOf_eq_none_iff.1 hrow)
  | some i =>
    refine .inr ⟨i, opcode_of_rowOf hrow, Bool.eq_false_iff.2 fun hwf => ?_⟩
    rw [decode_eq_ok_iff.2 ⟨hrow, hwf⟩] at h
    cases h

end

/-! The obligations -/

/-- Settles O1: the encoded word has the row of its command, and its unused fields are 0. -/
theorem decodeOfEncode : Obligations.DecodeOfEncode :=
  fun i => decode_eq_ok_iff.2 ⟨rowOf_encode i, wellFormedAs_encode i⟩

/-- Settles O2: the row's format says how the command is assembled, and a word that decodes has nothing besides. -/
theorem encodeOfDecode : Obligations.EncodeOfDecode := by
  intro w i h
  obtain ⟨hrow, hwf⟩ := decode_eq_ok_iff.1 h
  rw [encode_of_rowOf hrow, fill_of_wellFormedAs hwf]

/-- Settles O3: a missing row is an opcode of R89, and a failed match is a nonzero must-be-zero field. -/
theorem decoderRejectsExactlyIllegalWords : Obligations.DecoderRejectsExactlyIllegalWords := by
  refine fun w => ⟨⟨?_, fun ⟨e, h⟩ => illegalWord_of_decode_eq_error h⟩, decode_of_illegalOpcode⟩
  rintro (hop | ⟨i, hop, hwf⟩)
  · exact ⟨_, decode_of_illegalOpcode hop⟩
  · exact ⟨_, decode_of_not_wellFormedAs hop hwf⟩

/-- Settles O5: the nine words are the encodings of their commands, and the two others are an INIT with a bit of `DATA`
set and an opcode of R89. -/
theorem wordsWrittenOutDecode : Obligations.WordsWrittenOutDecode :=
  ⟨decodeOfEncode .init, decodeOfEncode (.rdreg 3#4), decodeOfEncode (.wrreg 3#4 0x64#8), decodeOfEncode .getFaults,
    decodeOfEncode (.setLtlft 0xFFFFFF60#32), decodeOfEncode .getcCjto, decodeOfEncode (.setcCjt 0x41D20000#32),
    decodeOfEncode .getfCjto, decodeOfEncode (.setfCjto 0xBF666666#32),
    decode_of_not_wellFormedAs (i := .init) rfl rfl,
    decode_of_illegalOpcode (by simp [Machine.illegalOpcode, opField])⟩

end Sys2Proof
end

section
/-! The raw value of a quantity from the bytes of its cells (30_encoding.md R95, R96). -/

namespace Sys2Proof.Machine

theorem readRaw_of_memRead {s : State} {q : Quantity} {w : Nat}
    (h : memRead s q.firstCell q.cellCount = .ok w) : readRaw s q = .ok (q.decode w) :=
  readRaw_eq_ok.2 ⟨w, h, rfl⟩

/-- `b0 : b1` as a number, the first in the high bits (00_scope.md R11). -/
theorem toNat_append_byte {n : Nat} (x : BitVec n) (b : Byte) : (x ++ b).toNat = x.toNat * 256 + b.toNat := by
  rw [BitVec.toNat_append, ← Nat.shiftLeft_add_eq_or_of_lt b.isLt, Nat.shiftLeft_eq]

theorem sext_toNat {n : Nat} (x : BitVec n) : sext n x.toNat = x.toInt := by
  rw [sext, BitVec.ofInt_natCast, BitVec.ofNat_toNat, BitVec.setWidth_eq]

theorem asr_eq_div (v : Int) (k : Nat) : asr v k = v / 2 ^ k := by
  rw [asr, Int.shiftRight_eq_div_pow]; norm_cast

section
variable {s : State} {q : Quantity} {h m l : Byte}

theorem readRaw_one (hcount : q.cellCount = 1) (h0 : s.cell q.firstCell = some h) :
    readRaw s q = .ok (q.decode h.toNat) :=
  readRaw_of_memRead (by rw [hcount, memRead_one s _ h h0])

theorem readRaw_two (hcount : q.cellCount = 2) (h0 : s.cell q.firstCell = some h)
    (h1 : s.cell (q.firstCell + 1#4) = some l) : readRaw s q = .ok (q.decode (h ++ l).toNat) :=
  readRaw_of_memRead (by rw [hcount, memRead_two s _ h l h0 h1, toNat_append_byte])

theorem readRaw_three (hcount : q.cellCount = 3) (h0 : s.cell q.firstCell = some h)
    (h1 : s.cell (q.firstCell + 1#4) = some m) (h2 : s.cell (q.firstCell + 1#4 + 1#4) = some l) :
    readRaw s q = .ok (q.decode (h ++ m ++ l).toNat) :=
  readRaw_of_memRead (by
    rw [hcount, memRead_three s _ h m l h0 h1 h2, toNat_append_byte, toNat_append_byte])

end

theorem decLTC_toNat (x : BitVec 24) : decLTC x.toNat = x.toInt / 32 := by
  rw [decLTC, sext_toNat, asr_eq_div]; rfl

theorem decCJT_toNat (x : BitVec 16) : decCJT x.toNat = x.toInt / 4 := by
  rw [decCJT, sext_toNat, asr_eq_div]; rfl

theorem decS16_toNat (x : BitVec 16) : decS16 x.toNat = x.toInt := sext_toNat x

theorem decS8_toNat (x : BitVec 8) : decS8 x.toNat = x.toInt := sext_toNat x

/-- Settles O18: each quantity is the decode of its cells' bytes put together. -/
theorem rawValuesOfCells : Obligations.RawValuesOfCells := by
  refine ⟨fun s h m l h0 h1 h2 => ?_, fun s h l h0 h1 => ?_, fun s h l h0 h1 => ?_, fun s h l h0 h1 => ?_,
    fun s b hb => ?_, fun s b hb => ?_, fun s b hb => ?_⟩
  · rw [readRaw_three rfl h0 h1 h2, Quantity.decode, decLTC_toNat]
  · rw [readRaw_two rfl h0 h1, Quantity.decode, decCJT_toNat]
  · rw [readRaw_two rfl h0 h1, Quantity.decode, decS16_toNat]
  · rw [readRaw_two rfl h0 h1, Quantity.decode, decS16_toNat]
  · rw [readRaw_one rfl hb, Quantity.decode, decS8_toNat]
  · rw [readRaw_one rfl hb, Quantity.decode, decS8_toNat]
  · rw [readRaw_one rfl hb, Quantity.decode, decS8_toNat]

end Sys2Proof.Machine
end

section
/-! The Register Image commands (40_register_image.md), from where a write of several bytes puts each byte. -/

namespace Sys2Proof.Machine

/-! A write of several bytes that stays within the sixteen cells -/

section
variable {i k : Nat} {bs : List Byte}

theorem writeFrom_cons_ofNat (s : State) (i : Nat) (b : Byte) (bs : List Byte) :
    writeFrom s (BitVec.ofNat 4 i) (b :: bs) =
      writeFrom (s.setCell (BitVec.ofNat 4 i) b) (BitVec.ofNat 4 (i + 1)) bs := by
  rw [writeFrom, BitVec.ofNat_add]

theorem read_writeFrom_of_outside (s : State) (h16 : i + bs.length ≤ 16) (hk : k < i ∨ i + bs.length ≤ k) :
    (writeFrom s (BitVec.ofNat 4 i) bs).image.read k = s.image.read k := by
  induction bs generalizing s i with
  | nil => rfl
  | cons b rest ih =>
    rw [List.length_cons] at h16 hk
    have hne : k ≠ (BitVec.ofNat 4 i).toNat := by rw [toNat_ofNat_cell (by omega)]; omega
    rw [writeFrom_cons_ofNat, ih _ (by omega) (by omega), setCell_image, Memory.read_write_other _ _ _ _ hne]

theorem read_writeFrom_of_lt (s : State) (h16 : i + bs.length ≤ 16) (hk : k < bs.length) :
    (writeFrom s (BitVec.ofNat 4 i) bs).image.read (i + k) = some bs[k] := by
  induction bs generalizing s i k with
  | nil => cases hk
  | cons b rest ih =>
    rw [List.length_cons] at h16
    have hrest : i + 1 + rest.length ≤ 16 := by omega
    rw [writeFrom_cons_ofNat]
    cases k with
    | zero =>
      rw [Nat.add_zero i, read_writeFrom_of_outside _ hrest (.inl (Nat.lt_succ_self i)), setCell_image,
        toNat_ofNat_cell (by omega)]
      exact Memory.read_write_same ..
    | succ k =>
      rw [show i + (k + 1) = i + 1 + k by omega]
      exact ih _ hrest (Nat.lt_of_succ_lt_succ hk)

end

/-! RDREG, WRREG and RSTDEF -/

theorem exec_rdreg_of_cell {s : State} {a : CellAddr} {b : Byte} (h : s.cell a = some b) :
    exec (.rdreg a) s = .next (respond .ok (unsignedValue b.toNat) s) := by
  change execRdreg a s = _
  rw [execRdreg, readCell_eq_ok.2 h, withRead_ok]

theorem exec_wrreg_of_lt (s : State) {a : CellAddr} (b : Byte) (h : a.toNat < 12) :
    exec (.wrreg a b) s = .next (respond .ok 0#32 (s.setCell a b)) := by
  change execWrreg a b s = _
  rw [execWrreg, if_neg (show ¬firstReadOnlyCell ≤ a.toNat from Nat.not_le_of_lt h)]

theorem exec_rstdef (s : State) :
    exec .rstdef s = .next (respond .ok 0#32 (writeFrom s 0#4 s.params.factoryDefaults.toList)) := rfl

/-- Settles O12: the image is written at `a` alone. -/
theorem wrregStoresByte : Obligations.WrregStoresByte := fun s a b ha =>
  ⟨s.image.write a.toNat b, exec_wrreg_of_lt s b ha, Memory.read_write_same ..,
    fun k hk => Memory.read_write_other s.image a.toNat k b hk⟩

/-- Settles O14: the table's sixteen bytes are written from cell 0 on. -/
theorem rstdefLoadsTable : Obligations.RstdefLoadsTable := by
  intro s
  have hlen : s.params.factoryDefaults.toList.length = 16 := Vector.length_toList
  refine ⟨(writeFrom s 0#4 s.params.factoryDefaults.toList).image, ?_, fun k hk => ?_, fun k hk => ?_⟩
  · rw [exec_rstdef, writeFrom_eq]; rfl
  · have hread := read_writeFrom_of_lt (i := 0) (k := k) s (by rw [hlen]) (by rw [hlen]; exact hk)
    rwa [Nat.zero_add, Vector.getElem_toList] at hread
  · exact read_writeFrom_of_outside (i := 0) s (by rw [hlen]) (.inr (by rw [hlen]; exact hk))

/-- Settles O15: these commands call no bus, so they touch the registers only. -/
theorem registerImageCommandsKeepControlState : Obligations.RegisterImageCommandsKeepControlState := by
  intro i s t hi h
  have hbus : callsBus i = false := by
    rcases hi with ⟨a, rfl⟩ | ⟨a, b, rfl⟩ | rfl <;> rfl
  rw [registersOnly_of_exec hbus h]
  exact ⟨rfl, rfl, rfl, rfl, rfl, rfl, rfl⟩

/-- Settles O11: the byte read is zero-extended into the response. -/
theorem rdregAnswersCell : Obligations.RdregAnswersCell := by
  intro s a b hb
  rw [exec_rdreg_of_cell hb, unsignedValue, BitVec.ofNat_toNat]
  rfl

end Sys2Proof.Machine
end

section
/-! What a frame leaves of the state: which exchanges it made, up to a failed one if there is one, and which cells a
read frame stored (41_transactions.md R121, R122, R123). -/

namespace Sys2Proof.Machine

/-! Exchanges of which one fails -/

section
variable {outs ins : List Byte} {ans : Nat → Config.BusAnswer}

/-- The answers to a frame's exchanges, the one to the address byte first. -/
theorem answers_cons {a0 : Byte} (h0 : ans 0 = .byte a0) (hins : ∀ k (h : k < ins.length), ans (k + 1) = .byte ins[k])
    (k : Nat) (hk : k < (a0 :: ins).length) : ans k = .byte (a0 :: ins)[k] := by
  cases k with
  | zero => exact h0
  | succ k => exact hins k (Nat.lt_of_succ_lt_succ hk)

/-- A failed exchange is the last one, and the frame answers `E_BUS` (41_transactions.md R122). -/
theorem exchanges_of_fail (hlt : ins.length < outs.length) (hins : ∀ k (h : k < ins.length), ans k = .byte ins[k])
    (hfail : ans ins.length = .fail) :
    exchangeCode outs ans = .eBus ∧
      exchangeEvents outs ans = List.zipWith BusEvent.xchg outs ins ++ [.xchgFail outs[ins.length]] := by
  induction outs generalizing ins ans with
  | nil => cases hlt
  | cons out rest ih =>
    cases ins with
    | nil => exact ⟨exchangeCode_cons_of_fail hfail, exchangeEvents_cons_of_fail hfail⟩
    | cons b bs =>
      have h0 : ans 0 = .byte b := hins 0 (Nat.succ_pos _)
      obtain ⟨hcode, hevents⟩ := ih (ans := fun k => ans (k + 1)) (Nat.lt_of_succ_lt_succ hlt)
        (fun k hk => hins (k + 1) (Nat.succ_lt_succ hk)) hfail
      rw [exchangeCode_cons_of_byte h0, exchangeEvents_cons_of_byte h0, hevents]
      exact ⟨hcode, rfl⟩

/-- From a failed exchange on nothing is stored (41_transactions.md R123). -/
theorem storedImage_take_of_fail {n : Nat} (hfail : ans n = .fail) (i : Nat) (m : Memory) :
    storedImage true i outs ans m = storedImage true i (outs.take n) ans m := by
  induction outs generalizing n i ans m with
  | nil => rw [List.take_nil]
  | cons out rest ih =>
    cases n with
    | zero => simp [storedImage, hfail]
    | succ n =>
      rw [List.take_succ_cons]
      cases h0 : ans 0 with
      | fail => simp [storedImage, h0]
      | byte b =>
        rw [storedImage_cons_of_byte h0, storedImage_cons_of_byte h0]
        exact ih (ans := fun k => ans (k + 1)) hfail ..

/-- The data exchanges store to no cell from the end of the bytes sent on. -/
theorem read_storedImage_of_ge {i k : Nat} (h16 : i + outs.length ≤ 16) (hk : i + outs.length ≤ k) (m : Memory) :
    (storedImage true i outs ans m).read k = m.read k := by
  induction outs generalizing i ans m with
  | nil => rfl
  | cons out rest ih =>
    rw [List.length_cons] at h16 hk
    cases h0 : ans 0 with
    | fail => simp [storedImage, h0]
    | byte b =>
      rw [storedImage_cons_of_byte h0, ih (by omega) (by omega), Memory.read_write_other]
      rw [toNat_ofNat_cell (by omega)]
      omega

end

/-! The state a frame ends in -/

/-- `s` after a frame of the `n` exchanges `evs`, which left the image `m`, and its response: released and quiet
(10_state.md R48, 41_transactions.md R121). -/
def frameEnd (m : Memory) (evs : List BusEvent) (n : Nat) (c : RespCode) (v : Word) (s : State) : State :=
  { s with
    image := m
    csAsserted := false
    busHeld := false
    phase := .idle
    txn := none
    trace := s.trace ++ ([.acquire, .select] ++ evs ++ [.deselect, .release])
    responses := s.responses ++ [⟨c.bits, v⟩]
    busAnswers := s.busAnswers.drop n
    exchanges := s.exchanges + n }

theorem transaction_code (mode : TxMode) (outs : List Byte) (store : Bool) (s : State) :
    (transaction mode outs store s).1 = exchangeCode (addressByte mode 0#4 :: outs) s.busAnswerAt := by
  rw [transaction_eq]

theorem respond_transaction {mode : TxMode} {outs : List Byte} {store : Bool} {s : State} {evs : List BusEvent} {n : Nat}
    (hevents : exchangeEvents (addressByte mode 0#4 :: outs) s.busAnswerAt = evs) (hn : evs.length = n)
    (c : RespCode) (v : Word) :
    respond c v (transaction mode outs store s).2 =
      frameEnd (transaction mode outs store s).2.image evs n c v s := by
  subst hevents hn
  rw [transaction_eq]; rfl

/-! Read frames -/

section
variable {s : State} {a0 : Byte} {rs : List Byte}

theorem readTransaction_image_of_fail (h0 : s.busAnswerAt 0 = .fail) : (readTransaction s).2.image = s.image := by
  rw [readTransaction, transaction_eq]
  simp only [h0]

theorem readTransaction_image_of_byte (h0 : s.busAnswerAt 0 = .byte a0) :
    (readTransaction s).2.image =
      storedImage true 0 (List.replicate readCount s.params.readFill) (fun k => s.busAnswerAt (k + 1)) s.image := by
  rw [readTransaction, transaction_eq]
  simp only [h0]

/-- A read frame that received `rs`, all sixteen bytes or those before a failed exchange, has stored them in the first
cells, and every other address reads as before (41_transactions.md R123). -/
theorem read_readTransaction_image (h16 : rs.length ≤ 16) (h0 : s.busAnswerAt 0 = .byte a0)
    (hrs : ∀ k (h : k < rs.length), s.busAnswerAt (k + 1) = .byte rs[k])
    (hend : rs.length = 16 ∨ s.busAnswerAt (rs.length + 1) = .fail) :
    (∀ k (h : k < rs.length), (readTransaction s).2.image.read k = some rs[k]) ∧
      ∀ k, rs.length ≤ k → (readTransaction s).2.image.read k = s.image.read k := by
  have hstored : (readTransaction s).2.image =
      storedImage true 0 (List.replicate rs.length s.params.readFill) (fun k => s.busAnswerAt (k + 1)) s.image := by
    rw [readTransaction_image_of_byte h0]
    rcases hend with hall | hfail
    · rw [hall, readCount]
    · rw [storedImage_take_of_fail (ans := fun k => s.busAnswerAt (k + 1)) hfail, List.take_replicate, readCount,
        Nat.min_eq_left h16]
  have hcount : 0 + (List.replicate rs.length s.params.readFill).length = rs.length := by simp
  rw [hstored]
  refine ⟨fun k hk => ?_, fun k hk => read_storedImage_of_ge (by omega) (by omega) _⟩
  have hread := read_storedImage_of_bytes (i := 0) (outs := List.replicate rs.length s.params.readFill)
    (by omega) (by omega) hrs s.image k hk
  rwa [Nat.zero_add] at hread

theorem zipWith_replicate_eq_map (h16 : rs.length ≤ 16) (fill : Byte) :
    List.zipWith BusEvent.xchg (List.replicate readCount fill) rs = rs.map fun r => .xchg fill r := by
  exact List.ext_getElem (by simpa [readCount] using h16) fun k _ _ => by simp

/-- A read frame with no failed exchange (41_transactions.md R121). -/
theorem readTransaction_of_bytes (h16 : rs.length = 16) (h0 : s.busAnswerAt 0 = .byte a0)
    (hrs : ∀ k (h : k < rs.length), s.busAnswerAt (k + 1) = .byte rs[k]) (v : Word) :
    (readTransaction s).1 = .ok ∧
      respond .ok v (readTransaction s).2 =
        frameEnd (readTransaction s).2.image (.xchg 0x00#8 a0 :: rs.map fun r => .xchg s.params.readFill r) 17
          .ok v s := by
  obtain ⟨hcode, hevents⟩ := exchanges_of_bytes
    (outs := addressByte .read 0#4 :: List.replicate readCount s.params.readFill)
    (by simp [readCount, h16]) (answers_cons h0 hrs)
  rw [List.zipWith_cons_cons, zipWith_replicate_eq_map h16.le] at hevents
  exact ⟨(transaction_code ..).trans hcode, respond_transaction hevents (by simp [h16]) ..⟩

/-- A read frame whose address exchange fails (41_transactions.md R122). -/
theorem readTransaction_of_address_fail (h0 : s.busAnswerAt 0 = .fail) (v : Word) :
    (readTransaction s).1 = .eBus ∧
      respond .eBus v (readTransaction s).2 = frameEnd s.image [.xchgFail 0x00#8] 1 .eBus v s := by
  have hend := respond_transaction (outs := List.replicate readCount s.params.readFill) (store := true)
    (exchangeEvents_cons_of_fail (out := addressByte .read 0#4) h0) rfl .eBus v
  rw [← readTransaction, readTransaction_image_of_fail h0] at hend
  exact ⟨(transaction_code ..).trans (exchangeCode_cons_of_fail h0), hend⟩

/-- A read frame whose data exchange after the bytes `rs` fails (41_transactions.md R122, R123). -/
theorem readTransaction_of_data_fail (h15 : rs.length ≤ 15) (h0 : s.busAnswerAt 0 = .byte a0)
    (hrs : ∀ k (h : k < rs.length), s.busAnswerAt (k + 1) = .byte rs[k])
    (hfail : s.busAnswerAt (rs.length + 1) = .fail) (v : Word) :
    (readTransaction s).1 = .eBus ∧
      respond .eBus v (readTransaction s).2 =
        frameEnd (readTransaction s).2.image
          ((.xchg 0x00#8 a0 :: rs.map fun r => .xchg s.params.readFill r) ++ [.xchgFail s.params.readFill])
          (rs.length + 2) .eBus v s := by
  obtain ⟨hcode, hevents⟩ := exchanges_of_fail
    (outs := addressByte .read 0#4 :: List.replicate readCount s.params.readFill)
    (by simp [readCount]; omega) (answers_cons h0 hrs) hfail
  simp only [List.zipWith_cons_cons, zipWith_replicate_eq_map (Nat.le_succ_of_le h15), List.length_cons,
    List.getElem_cons_succ, List.getElem_replicate] at hevents
  exact ⟨(transaction_code ..).trans hcode, respond_transaction hevents (by simp) ..⟩

end

end Sys2Proof.Machine
end

section
/-! The transaction commands (41_transactions.md): each is its frame and the response, or the read of an undefined
cell; and no other command calls the bus. -/

namespace Sys2Proof.Machine

/-! INIT and REFRESH -/

/-- A frame sets the select line itself, so INIT's frame is that of the state with the line configured. -/
theorem readTransaction_configureLine (s : State) :
    readTransaction (configureLine s) = readTransaction { s with initialized := true, csConfigured := true } := by
  rw [readTransaction, readTransaction, transaction_eq, transaction_eq]; rfl

theorem exec_init_eq (s : State) :
    exec .init s =
      .next (respond (readTransaction (configureLine s)).1 0#32 (readTransaction (configureLine s)).2) := rfl

theorem exec_refresh_of_ok {s : State} {b : Byte} (hinit : s.initialized = true) (hok : (readTransaction s).1 = .ok)
    (hstatus : (readTransaction s).2.cell 15#4 = some b) :
    exec .refresh s = .next (respond .ok (statusValue b) (readTransaction s).2) := by
  rw [exec_refresh_of_initialized hinit, refreshResponse, hok]
  dsimp only
  rw [readCell_eq_ok.2 hstatus, withRead_ok]

theorem exec_refresh_of_eBus {s : State} (hinit : s.initialized = true) (hfail : (readTransaction s).1 = .eBus) :
    exec .refresh s = .next (respond .eBus 0#32 (readTransaction s).2) := by
  rw [exec_refresh_of_initialized hinit, refreshResponse, hfail]; rfl

/-- Settles O45: the frame of the sixteen bytes, from the state with the line configured. -/
theorem initReadsAllCells : Obligations.InitReadsAllCells := by
  intro s a0 rs h16 h0 hrs
  obtain ⟨hok, hend⟩ := readTransaction_of_bytes (s := configureLine s) h16 h0 hrs 0#32
  obtain ⟨hnew, hold⟩ := read_readTransaction_image (s := configureLine s) h16.le h0 hrs (.inl h16)
  refine ⟨_, ?_, hnew, h16 ▸ hold⟩
  rw [exec_init_eq, hok, hend]; rfl

/-- Settles O46: the status byte is cell 15, the sixteenth byte received. -/
theorem refreshReadsAllCells : Obligations.RefreshReadsAllCells := by
  intro s a0 rs h16 hinit h0 hrs
  obtain ⟨hok, hend⟩ := readTransaction_of_bytes h16 h0 hrs (statusValue (rs[15]'(by omega)))
  obtain ⟨hnew, hold⟩ := read_readTransaction_image h16.le h0 hrs (.inl h16)
  refine ⟨_, ?_, hnew, h16 ▸ hold⟩
  rw [exec_refresh_of_ok hinit hok (readTransaction_cell_of_bytes h16 h0 hrs 15 (by omega)), hend]
  rfl

/-- Settles O47: both commands end as their read frame does, INIT's from the state with the line configured. -/
theorem failedReadKeepsReceivedCells : Obligations.FailedReadKeepsReceivedCells := by
  intro i s base hi
  have hexec : (readTransaction base).1 = .eBus → exec i s = .next (respond .eBus 0#32 (readTransaction base).2) := by
    rcases hi with ⟨rfl, rfl⟩ | ⟨rfl, hinit, rfl⟩
    · intro hfail; rw [exec_init_eq, readTransaction_configureLine, hfail]
    · exact exec_refresh_of_eBus hinit
  obtain ⟨ini, csc, rfl⟩ : ∃ ini csc, base = { s with initialized := ini, csConfigured := csc } := by
    rcases hi with ⟨-, rfl⟩ | ⟨-, -, rfl⟩ <;> exact ⟨_, _, rfl⟩
  refine ⟨fun h0 => ?_, fun a0 rs h15 h0 hrs hfail => ?_⟩
  · obtain ⟨hcode, hend⟩ := readTransaction_of_address_fail
      (s := { s with initialized := ini, csConfigured := csc }) h0 0#32
    rw [hexec hcode, hend]; rfl
  · obtain ⟨hcode, hend⟩ := readTransaction_of_data_fail
      (s := { s with initialized := ini, csConfigured := csc }) h15 h0 hrs hfail 0#32
    refine ⟨_, ?_, read_readTransaction_image
      (s := { s with initialized := ini, csConfigured := csc }) (Nat.le_succ_of_le h15) h0 hrs (.inr hfail)⟩
    rw [hexec hcode, hend, frameEnd]
    simp [RespCode.bits]

/-! COMMIT -/

section
variable {s : State} {outs : List Byte} {cr0 : Byte}

theorem CommitReads.of_cells (hcr0 : s.cell 0#4 = some cr0) (hlen : outs.length = if cr0.getLsbD 3 then 12 else 10)
    (houts : ∀ k (h : k < outs.length), s.cell (BitVec.ofNat 4 k) = some outs[k]) : CommitReads s outs :=
  ⟨cr0, hcr0, readFrom_eq_ok.2 ⟨hlen, fun k hk => by rw [BitVec.zero_add]; exact houts k hk⟩⟩

/-- COMMIT's frame leaves the image unchanged (41_transactions.md R132, R133). -/
theorem commitSend_eq_frameEnd {evs : List BusEvent} {n : Nat} {c : RespCode}
    (hcode : exchangeCode (0x80#8 :: outs) s.busAnswerAt = c)
    (hevents : exchangeEvents (0x80#8 :: outs) s.busAnswerAt = evs) (hn : evs.length = n) :
    commitSend outs s = frameEnd s.image evs n c 0#32 s := by
  have himage : (transaction .write outs false s).2.image = s.image := commitSend_image outs s
  have hc : (transaction .write outs false s).1 = c := (transaction_code ..).trans hcode
  rw [commitSend, hc, respond_transaction (mode := .write) hevents hn, himage]

/-- A read of several cells stops at the lowest one that is undefined (60_exceptions.md R305). -/
theorem readFrom_eq_error_of_lowest {a : CellAddr} {n j : Nat} (hj : j < n)
    (hbelow : ∀ k, k < j → s.cell (a + BitVec.ofNat 4 k) ≠ none) (hnone : s.cell (a + BitVec.ofNat 4 j) = none) :
    readFrom s a n = .error (a + BitVec.ofNat 4 j) := by
  cases hread : readFrom s a n with
  | ok bs =>
    obtain ⟨hlen, hbs⟩ := readFrom_eq_ok.1 hread
    rw [hbs j (hlen ▸ hj)] at hnone
    cases hnone
  | error e =>
    obtain ⟨j', -, rfl, hnone', hbelow'⟩ := readFrom_eq_error hread
    rcases Nat.lt_trichotomy j j' with hlt | rfl | hgt
    · exact absurd hnone (hbelow' j hlt)
    · rfl
    · exact absurd hnone' (hbelow j' hgt)

theorem exec_commit_of_initialized (hinit : s.initialized = true) : exec .commit s = .next (commitFrame s) :=
  congrArg _ (if_pos hinit)

end

/-- Settles O48: the frame of the cells read, each paired with the byte received. -/
theorem commitSendsWritablePrefix : Obligations.CommitSendsWritablePrefix := by
  intro s cr0 a0 outs ins hinit hcr0 hcount houts hlen h0 hins
  obtain ⟨hcode, hevents⟩ := exchanges_of_bytes (outs := 0x80#8 :: outs) (ins := a0 :: ins) (by simp [hlen])
    (answers_cons h0 hins)
  rw [exec_commit_of_reads hinit (.of_cells hcr0 hcount houts),
    commitSend_eq_frameEnd (n := outs.length + 1) hcode hevents (by simp [hlen])]
  rfl

/-- Settles O49: the frame up to the failed exchange. -/
theorem failedCommitKeepsImage : Obligations.FailedCommitKeepsImage := by
  intro s cr0 outs ins hinit hcr0 hcount houts hlen hins hfail
  obtain ⟨hcode, hevents⟩ := exchanges_of_fail (outs := 0x80#8 :: outs) (Nat.lt_succ_of_le hlen) hins hfail
  rw [exec_commit_of_reads hinit (.of_cells hcr0 hcount houts),
    commitSend_eq_frameEnd (n := ins.length + 1) hcode hevents (by simp; omega), frameEnd]
  simp [RespCode.bits]

/-- Settles O51: cell 0 is read first, and then the cells to send, lowest first. -/
theorem commitOfUndefinedCellIsRecorded : Obligations.CommitOfUndefinedCellIsRecorded := by
  intro s hinit
  rw [exec_commit_of_initialized hinit, commitFrame]
  refine ⟨fun hnone => ?_, fun cr0 j hcr0 hj hbelow hnone => ?_⟩
  · rw [readCell_eq_error.2 ⟨hnone, rfl⟩]; rfl
  · have hread : readFrom s 0#4 (commitCount cr0) = .error (0#4 + BitVec.ofNat 4 j) :=
      readFrom_eq_error_of_lowest hj (by simpa only [BitVec.zero_add] using hbelow) (by rwa [BitVec.zero_add])
    rw [readCell_eq_ok.2 hcr0, withRead_ok, hread, BitVec.zero_add]; rfl

/-! The other commands -/

/-- Settles O54: these commands touch the registers only. -/
theorem otherCommandsCallNoBus : Obligations.OtherCommandsCallNoBus := by
  intro i s t hi h
  rw [registersOnly_of_exec hi h]
  exact ⟨rfl, rfl, rfl, rfl, rfl, rfl, rfl, rfl, rfl⟩

end Sys2Proof.Machine
end

section
/-! The integer codec: narrowing, the left-justified fields and their bytes (00_scope.md R12, 42_codec_integer.md R152,
R154, R158). -/

namespace Sys2Proof.Machine

section
variable {n w : Nat}

/-! Narrowing -/

theorem trunc_eq_emod (n : Nat) (v : Int) : (trunc n v : Int) = v % 2 ^ n := by
  rw [trunc, BitVec.toNat_ofInt, Int.toNat_of_nonneg (Int.emod_nonneg _ (by positivity))]
  norm_cast

theorem trunc_toInt (x : BitVec n) : trunc n x.toInt = x.toNat := by
  rw [trunc, BitVec.ofInt_toInt]

theorem sext_trunc (n : Nat) (v : Int) : sext n (trunc n v) = sext n v := by
  rw [trunc, sext_toNat, sext]

theorem setWidth_ofInt (h : n ≤ w) (v : Int) : (BitVec.ofInt w v).setWidth n = BitVec.ofInt n v := by
  rw [← BitVec.signExtend_eq_setWidth_of_le _ h]
  apply BitVec.eq_of_toInt_eq
  rw [BitVec.toInt_signExtend_eq_toInt_bmod_of_le _ h, BitVec.toInt_ofInt, BitVec.toInt_ofInt,
    Int.bmod_bmod_of_dvd (Nat.pow_dvd_pow 2 h)]

/-! A field left-justified over `k` unused bits -/

theorem ofInt_toInt_mul_two_pow (x : BitVec n) (k : Nat) : BitVec.ofInt n (x.toInt * 2 ^ k) = x <<< k := by
  have hpow : BitVec.ofInt n (2 ^ k) = BitVec.twoPow n k :=
    BitVec.eq_of_toNat_eq (by rw [BitVec.toNat_twoPow]; exact BitVec.toNat_ofNat (2 ^ k) n)
  rw [BitVec.ofInt_mul, BitVec.ofInt_toInt, hpow, BitVec.shiftLeft_eq_mul_twoPow]

/-- The low `k` bits are 0, and the bits above them are the value narrowed to the field. -/
theorem ofInt_mul_two_pow (n k : Nat) (v : Int) : BitVec.ofInt (n + k) (v * 2 ^ k) = BitVec.ofInt n v ++ 0#k := by
  apply BitVec.eq_of_toNat_eq
  rw [BitVec.toNat_append, BitVec.toNat_zero, Nat.or_zero, Nat.shiftLeft_eq, ← Int.natCast_inj, Nat.cast_mul]
  change (trunc (n + k) (v * 2 ^ k) : Int) = trunc n v * (2 ^ k : Nat)
  rw [trunc_eq_emod, trunc_eq_emod, add_comm, pow_add, mul_comm v, Int.mul_emod_mul_of_pos _ _ (by positivity),
    mul_comm]
  norm_cast

/-- Decode after encode is the field sign-extended (42_codec_integer.md R152, R154). -/
theorem asr_sext_trunc_mul_two_pow (n k : Nat) (v : Int) :
    asr (sext (n + k) (trunc (n + k) (v * 2 ^ k))) k = (BitVec.ofInt n v).toInt := by
  rw [sext_trunc, sext, ofInt_mul_two_pow, BitVec.toInt_append_zero, asr_eq_div,
    Int.mul_ediv_cancel_left _ (by positivity)]

/-- Division with floor and the multiplication after it clear the low `k` bits (42_codec_integer.md R158). -/
theorem ofInt_toInt_ediv_mul_two_pow (x : BitVec n) (k : Nat) :
    BitVec.ofInt n (x.toInt / 2 ^ k * 2 ^ k) = x &&& BitVec.allOnes n <<< k := by
  have hshift : x.toInt / 2 ^ k = (x.sshiftRight k).toInt := by
    rw [BitVec.toInt_sshiftRight, Int.shiftRight_eq_div_pow]; norm_cast
  rw [hshift, ofInt_toInt_mul_two_pow]
  apply BitVec.eq_of_getLsbD_eq
  intro i hi
  by_cases hik : i < k
  · simp [hik]
  · have hadd : k + (i - k) = i := by omega
    simp [hik, hi, BitVec.getElem_sshiftRight, hadd]

/-! The bytes of a number -/

theorem splitBytes_one (x : BitVec w) : splitBytes 1 x.toNat = [x.extractLsb' 0 8] := by
  simp only [splitBytes, ← Nat.shiftRight_eq_div_pow]; rfl

theorem splitBytes_two (x : BitVec w) : splitBytes 2 x.toNat = [x.extractLsb' 8 8, x.extractLsb' 0 8] := by
  simp only [splitBytes, ← Nat.shiftRight_eq_div_pow]; rfl

theorem splitBytes_three (x : BitVec w) :
    splitBytes 3 x.toNat = [x.extractLsb' 16 8, x.extractLsb' 8 8, x.extractLsb' 0 8] := by
  simp only [splitBytes, ← Nat.shiftRight_eq_div_pow]; rfl

theorem append_two_bytes (x : BitVec 16) : x.extractLsb' 8 8 ++ x.extractLsb' 0 8 = x :=
  BitVec.extractLsb'_append_extractLsb'

theorem append_three_bytes (x : BitVec 24) : x.extractLsb' 16 8 ++ x.extractLsb' 8 8 ++ x.extractLsb' 0 8 = x := by
  have hhigh : x.extractLsb' 16 8 ++ x.extractLsb' 8 8 = x.extractLsb' 8 16 :=
    BitVec.extractLsb'_append_extractLsb'_eq_extractLsb' (start₁ := 8) (len₁ := 8) rfl
  rw [hhigh]
  exact BitVec.extractLsb'_append_extractLsb'

end

/-! LTC and CJT -/

theorem encLTC_eq_append (v : Int) : encLTC v = (BitVec.ofInt 19 v ++ 0#5).toNat :=
  congrArg BitVec.toNat (ofInt_mul_two_pow 19 5 v)

theorem encCJT_eq_append (v : Int) : encCJT v = (BitVec.ofInt 14 v ++ 0#2).toNat :=
  congrArg BitVec.toNat (ofInt_mul_two_pow 14 2 v)

theorem decLTC_encLTC (v : Int) : decLTC (encLTC v) = (BitVec.ofInt 19 v).toInt :=
  asr_sext_trunc_mul_two_pow 19 5 v

theorem decCJT_encCJT (v : Int) : decCJT (encCJT v) = (BitVec.ofInt 14 v).toInt :=
  asr_sext_trunc_mul_two_pow 14 2 v

theorem extractLsb'_low_byte_append_zero {n k : Nat} (x : BitVec n) (hk : k ≤ 8) :
    ((x ++ 0#k).extractLsb' 0 8).extractLsb' 0 k = 0#k := by
  rw [BitVec.extractLsb'_extractLsb'_of_le (by omega), BitVec.extractLsb'_append_eq_right]

theorem encLTC_bytes (v : Int) :
    ∃ h m l : Byte, splitBytes 3 (encLTC v) = [h, m, l] ∧ l.extractLsb' 0 5 = 0#5 ∧
      (h ++ m ++ l).toNat = encLTC v := by
  rw [encLTC_eq_append]
  exact ⟨_, _, _, splitBytes_three _, extractLsb'_low_byte_append_zero _ (by decide),
    congrArg BitVec.toNat (append_three_bytes _)⟩

theorem encCJT_bytes (v : Int) :
    ∃ h l : Byte, splitBytes 2 (encCJT v) = [h, l] ∧ l.extractLsb' 0 2 = 0#2 ∧ (h ++ l).toNat = encCJT v := by
  rw [encCJT_eq_append]
  exact ⟨_, _, splitBytes_two _, extractLsb'_low_byte_append_zero _ (by decide),
    congrArg BitVec.toNat (append_two_bytes _)⟩

/-- Settles O30: the encode is the 19-bit field over five 0 bits, and the decode divides them away. -/
theorem ltcCodecLaws : Obligations.LtcCodecLaws := by
  refine ⟨fun h m l => ⟨decLTC_toNat _, ?_⟩,
    fun v => ⟨trunc_eq_emod 24 _, encLTC_bytes v, fun hlo hhi => ?_, decLTC_encLTC v⟩⟩
  · rw [decLTC_toNat, BitVec.toInt_append_zero]
    exact (Int.mul_ediv_mul_of_pos _ _ (by positivity)).symm
  · rw [decLTC_encLTC]
    exact BitVec.toInt_ofInt_eq_self (by decide) hlo (Int.lt_of_le_sub_one hhi)

/-- Settles O31: the encode is the 14-bit field over two 0 bits, and the decode divides them away. -/
theorem cjtCodecLaws : Obligations.CjtCodecLaws := by
  refine fun v => ⟨trunc_eq_emod 16 _, encCJT_bytes v, fun hlo hhi => ?_, decCJT_encCJT v⟩
  rw [decCJT_encCJT]
  exact BitVec.toInt_ofInt_eq_self (by decide) hlo (Int.lt_of_le_sub_one hhi)

/-- Settles O32: the mask of the unused bits falls into the last byte. -/
theorem encodeAfterDecode : Obligations.EncodeAfterDecode := by
  refine ⟨fun h m l => ?_, fun h l => ?_, fun h l => ?_, fun b => ?_⟩
  · have hmask : BitVec.allOnes 24 <<< 5 = BitVec.allOnes 8 ++ BitVec.allOnes 8 ++ 0xE0#8 := by decide
    rw [decLTC_toNat]
    refine congrArg BitVec.toNat ((ofInt_toInt_ediv_mul_two_pow (h ++ m ++ l) 5).trans ?_)
    rw [hmask, BitVec.and_append, BitVec.and_append, BitVec.and_allOnes, BitVec.and_allOnes]
  · have hmask : BitVec.allOnes 16 <<< 2 = BitVec.allOnes 8 ++ 0xFC#8 := by decide
    rw [decCJT_toNat]
    refine congrArg BitVec.toNat ((ofInt_toInt_ediv_mul_two_pow (h ++ l) 2).trans ?_)
    rw [hmask, BitVec.and_append, BitVec.and_allOnes]
  · rw [decS16_toNat]; exact trunc_toInt _
  · rw [decS8_toNat]; exact trunc_toInt _

end Sys2Proof.Machine
end

section
/-! The reads of the integer codec: what a getter answers from its cells (42_codec_integer.md R160 to R172), and what
every command that reads cells does at one that is undefined (60_exceptions.md R305). -/

namespace Sys2Proof.Machine

section
variable {i : Instr} {s : State} {q : Quantity} {a c : CellAddr} {b : Byte} {r : Int}

/-! Reads of defined cells -/

theorem getRaw_of_readRaw (h : readRaw s q = .ok r) : getRaw q s = respond .ok (signedValue r) s := by
  rw [getRaw, h, withRead_ok]

theorem getFromCell_of_cell (h : s.cell a = some b) (value : Byte → Word) :
    getFromCell a value s = respond .ok (value b) s := by
  rw [getFromCell, readCell_eq_ok.2 h, withRead_ok]

theorem getFromCell_nibble (h : s.cell a = some b) (nibble : Byte → BitVec 4) :
    getFromCell a (fun c => unsignedValue (nibble c).toNat) s = respond .ok ((nibble b).setWidth 32) s := by
  rw [getFromCell_of_cell h, unsignedValue, BitVec.ofNat_toNat]

theorem statusFlags_eq_bits_statusValue (sr : Byte) :
    statusFlags sr =
      ⟨(statusValue sr).getLsbD 7, (statusValue sr).getLsbD 6, (statusValue sr).getLsbD 5, (statusValue sr).getLsbD 4,
        (statusValue sr).getLsbD 3, (statusValue sr).getLsbD 2, (statusValue sr).getLsbD 1,
        (statusValue sr).getLsbD 0⟩ := by
  simp [statusFlags, statusValue]

/-! Reads of an undefined cell -/

/-- `a` is the first of the cells that is undefined. -/
def FirstUndefined (s : State) (cells : List CellAddr) (a : CellAddr) : Prop :=
  ∃ before after, cells = before ++ a :: after ∧ (∀ k ∈ before, s.cell k ≠ none) ∧ s.cell a = none

theorem not_firstUndefined_nil : ¬ FirstUndefined s [] a := by
  rintro ⟨before, after, hcells, -, -⟩
  cases before <;> cases hcells

theorem readCell_of_firstUndefined (h : FirstUndefined s [c] a) : readCell s c = .error a := by
  obtain ⟨before, after, hcells, -, hnone⟩ := h
  cases before with
  | nil => cases hcells; exact readCell_eq_error.2 ⟨hnone, rfl⟩
  | cons k rest => cases rest <;> cases hcells

theorem getElem_cells (q : Quantity) {k : Nat} (hk : k < q.cells.length) :
    q.cells[k] = q.firstCell + BitVec.ofNat 4 k := by
  simp [Quantity.cells]

theorem readRaw_of_firstUndefined (h : FirstUndefined s q.cells a) : readRaw s q = .error a := by
  obtain ⟨before, after, hcells, hbefore, hnone⟩ := h
  have hlen : q.cells.length = q.cellCount := by simp [Quantity.cells]
  have hlt : before.length < q.cells.length := by simp [hcells]
  have ha : a = q.firstCell + BitVec.ofNat 4 before.length := by
    rw [← getElem_cells q hlt]; simp [hcells]
  have hbelow : ∀ k, k < before.length → s.cell (q.firstCell + BitVec.ofNat 4 k) ≠ none := fun k hk => by
    have hmem : q.cells[k]'(hk.trans hlt) = before[k] := by simp [hcells, hk]
    rw [← getElem_cells q (hk.trans hlt), hmem]
    exact hbefore _ (List.getElem_mem hk)
  have hread : readFrom s q.firstCell q.cellCount = .error a :=
    ha ▸ readFrom_eq_error_of_lowest (hlen ▸ hlt) hbelow (ha ▸ hnone)
  rw [readRaw, memRead, hread]

theorem exec_of_readCell_undefined {k : Byte → State} (hexec : exec i s = .next (withRead (readCell s c) s k))
    (hcells : fixedCellsRead i = [c]) (h : FirstUndefined s (fixedCellsRead i) a) :
    exec i s = .next (recordFault (.uninitRead a) s) := by
  rw [hexec, readCell_of_firstUndefined (hcells ▸ h), withRead_error]

theorem exec_of_readRaw_undefined {k : Int → State} (hexec : exec i s = .next (withRead (readRaw s q) s k))
    (hcells : fixedCellsRead i = q.cells) (h : FirstUndefined s (fixedCellsRead i) a) :
    exec i s = .next (recordFault (.uninitRead a) s) := by
  rw [hexec, readRaw_of_firstUndefined (hcells ▸ h), withRead_error]

/-- A command with a cell in its row of the table begins with the read of that row, and ends with it at an undefined
cell (10_state.md R34, 60_exceptions.md R305). -/
theorem exec_of_firstUndefined (h : FirstUndefined s (fixedCellsRead i) a) :
    exec i s = .next (recordFault (.uninitRead a) s) := by
  cases i with
  | init | refresh | commit | rstdef | wrreg
  | setCjt | setLthft | setLtlft | setCjhf | setCjlf | setCjto
  | setcCjt | setcLthft | setcLtlft | setcCjhf | setcCjlf | setcCjto
  | setfCjt | setfLthft | setfLtlft | setfCjhf | setfCjlf | setfCjto => exact absurd h not_firstUndefined_nil
  | rdreg | getAvg | getTctype | getFaults | setAvg | setTctype => exact exec_of_readCell_undefined rfl rfl h
  | getLtc | getCjt | getLthft | getLtlft | getCjhf | getCjlf | getCjto
  | getcLtc | getcCjt | getcLthft | getcLtlft | getcCjhf | getcCjlf | getcCjto
  | getfLtc | getfCjt | getfLthft | getfLtlft | getfCjhf | getfCjlf | getfCjto =>
    exact exec_of_readRaw_undefined rfl rfl h

end

/-- Settles O19: the raw value of the three cells, narrowed into the response. -/
theorem getLtcAnswersField : Obligations.GetLtcAnswersField := by
  intro s h m l h0 h1 h2
  obtain ⟨hltc, -⟩ := rawValuesOfCells
  exact congrArg _ (getRaw_of_readRaw (hltc s h m l h0 h1 h2))

/-- Settles O20: the raw value of the two cells, narrowed into the response. -/
theorem getCjtAnswersField : Obligations.GetCjtAnswersField := by
  intro s h l h0 h1
  obtain ⟨-, hcjt, -⟩ := rawValuesOfCells
  exact congrArg _ (getRaw_of_readRaw (hcjt s h l h0 h1))

/-- Settles O21: the raw values are the signed fields, and narrowing a signed value to 32 bits is its sign extension. -/
theorem getThresholdsAnswerField : Obligations.GetThresholdsAnswerField := by
  obtain ⟨-, -, hlthft, hltlft, -⟩ := rawValuesOfCells
  exact ⟨fun s h l h0 h1 => congrArg _ (getRaw_of_readRaw (hlthft s h l h0 h1)),
    fun s h l h0 h1 => congrArg _ (getRaw_of_readRaw (hltlft s h l h0 h1))⟩

/-- Settles O22: as the thresholds, for the fields of one byte. -/
theorem getSignedByteAnswersField : Obligations.GetSignedByteAnswersField := by
  obtain ⟨-, -, -, -, hcjhf, hcjlf, hcjto⟩ := rawValuesOfCells
  exact fun s b => ⟨fun h0 => congrArg _ (getRaw_of_readRaw (hcjhf s b h0)),
    fun h0 => congrArg _ (getRaw_of_readRaw (hcjlf s b h0)), fun h0 => congrArg _ (getRaw_of_readRaw (hcjto s b h0))⟩

/-- Settles O23: each nibble of cell 1 is zero-extended into the response. -/
theorem getNibblesAnswerField : Obligations.GetNibblesAnswerField := fun _ _ hc =>
  ⟨congrArg _ (getFromCell_nibble hc getHi), congrArg _ (getFromCell_nibble hc getLo)⟩

/-- Settles O24: the response is the status byte zero-extended, and the flags are its bits. -/
theorem getFaultsAnswersFlags : Obligations.GetFaultsAnswersFlags := by
  intro s sr hsr
  refine ⟨statusValue sr, congrArg _ (getFromCell_of_cell hsr statusValue), ?_, dataHigh_setWidth sr⟩
  rw [State.flags, hsr, Option.map_some, statusFlags_eq_bits_statusValue]

/-- Settles O25: these commands begin with the read of their cells, lowest first. -/
theorem readOfUndefinedCellIsRecorded : Obligations.ReadOfUndefinedCellIsRecorded :=
  fun _ _ before after _ hcells hbefore hnone => exec_of_firstUndefined ⟨before, after, hcells, hbefore, hnone⟩

end Sys2Proof.Machine
end

section
/-! The integer setters (42_codec_integer.md R180 to R187): the bytes of each encode, and the cells they are stored
in. -/

namespace Sys2Proof.Machine

section
variable {i : Instr} {s : State} {q : Quantity} {v : Int} {first : Nat}

/-! The encode of an operand -/

/-- Narrowing an operand takes its low bits (30_encoding.md R84). -/
theorem ofInt_intOperand {n : Nat} (hn : n ≤ 32) (v : Word) : BitVec.ofInt n (intOperand v) = v.extractLsb' 0 n := by
  rw [intOperand, ← setWidth_ofInt hn, BitVec.ofInt_toInt, BitVec.setWidth_eq_extractLsb' hn]

theorem encS8_intOperand (v : Word) : encS8 (intOperand v) = (v.extractLsb' 0 8).toNat :=
  congrArg BitVec.toNat (ofInt_intOperand (by decide) v)

theorem encS16_intOperand (v : Word) : encS16 (intOperand v) = (v.extractLsb' 0 16).toNat :=
  congrArg BitVec.toNat (ofInt_intOperand (by decide) v)

/-- Four times the operand, as a word and narrowed after it, is the operand shifted (42_codec_integer.md R154). -/
theorem encCJT_intOperand (v : Word) : encCJT (intOperand v) = ((v <<< 2).extractLsb' 0 16).toNat := by
  have hshift : BitVec.ofInt 32 (intOperand v * 4) = v <<< 2 := ofInt_toInt_mul_two_pow v 2
  rw [encCJT, trunc, ← setWidth_ofInt (w := 32) (by decide), hshift, BitVec.setWidth_eq_extractLsb' (by decide)]

theorem splitBytes_two_low_half (v : Word) :
    splitBytes 2 (v.extractLsb' 0 16).toNat = [v.extractLsb' 8 8, v.extractLsb' 0 8] := by
  rw [splitBytes_two, ← BitVec.setWidth_eq_extractLsb' (by decide), BitVec.extractLsb'_setWidth_of_le (by decide),
    BitVec.extractLsb'_setWidth_of_le (by decide)]

/-! What a setter stores -/

/-- A raw setter puts the bytes of its encode into the cells from the first one on, and every other address reads as
before (42_codec_integer.md R169, R179). -/
theorem exec_setRaw_stores {bs : List Byte} (hexec : exec i s = .next (setRaw q v s))
    (hfirst : q.firstCell = BitVec.ofNat 4 first) (hbytes : splitBytes q.cellCount (q.encode v) = bs)
    (h16 : first + bs.length ≤ 16) :
    ∃ m, exec i s = .next { s with image := m, responses := s.responses ++ [⟨0#3, 0#32⟩] } ∧
      (∀ k (h : k < bs.length), m.read (first + k) = some bs[k]) ∧
      ∀ k, k < first ∨ first + bs.length ≤ k → m.read k = s.image.read k := by
  have himage : (writeRaw s q v).image = (writeFrom s (BitVec.ofNat 4 first) bs).image := by
    rw [writeRaw, memWrite, hfirst, hbytes]
  refine ⟨(writeRaw s q v).image, by rw [hexec, setRaw_eq], fun k hk => ?_, fun k hk => ?_⟩
  · rw [himage]; exact read_writeFrom_of_lt s h16 hk
  · rw [himage]; exact read_writeFrom_of_outside s h16 hk

theorem exec_setRaw_one_cell {b : Byte} (hexec : exec i s = .next (setRaw q v s))
    (hfirst : q.firstCell = BitVec.ofNat 4 first) (hbytes : splitBytes q.cellCount (q.encode v) = [b])
    (h16 : first + 1 ≤ 16) :
    ∃ m, exec i s = .next { s with image := m, responses := s.responses ++ [⟨0#3, 0#32⟩] } ∧
      m.read first = some b ∧ ∀ k, k ≠ first → m.read k = s.image.read k := by
  obtain ⟨m, hm, hnew, hold⟩ := exec_setRaw_stores hexec hfirst hbytes h16
  exact ⟨m, hm, hnew 0 Nat.one_pos, fun k hk => hold k (by rw [List.length_singleton]; omega)⟩

theorem exec_setRaw_two_cells {h l : Byte} (hexec : exec i s = .next (setRaw q v s))
    (hfirst : q.firstCell = BitVec.ofNat 4 first) (hbytes : splitBytes q.cellCount (q.encode v) = [h, l])
    (h16 : first + 2 ≤ 16) :
    ∃ m, exec i s = .next { s with image := m, responses := s.responses ++ [⟨0#3, 0#32⟩] } ∧
      m.read first = some h ∧ m.read (first + 1) = some l ∧
      ∀ k, k ≠ first → k ≠ first + 1 → m.read k = s.image.read k := by
  obtain ⟨m, hm, hnew, hold⟩ := exec_setRaw_stores hexec hfirst hbytes h16
  have hlen : [h, l].length = 2 := rfl
  exact ⟨m, hm, hnew 0 Nat.two_pos, hnew 1 Nat.one_lt_two, fun k hk hk' => hold k (by omega)⟩

/-- A setter that modifies a cell stores the changed byte there alone (20_memory.md R74). -/
theorem exec_modifyCell_stores {a : CellAddr} {c : Byte} {change : Byte → Byte}
    (hexec : exec i s = .next (modifyCell a change s)) (hc : s.cell a = some c) :
    ∃ m, exec i s = .next { s with image := m, responses := s.responses ++ [⟨0#3, 0#32⟩] } ∧
      m.read a.toNat = some (change c) ∧ ∀ k, k ≠ a.toNat → m.read k = s.image.read k := by
  refine ⟨s.image.write a.toNat (change c), ?_, Memory.read_write_same ..,
    fun k hk => Memory.read_write_other _ _ _ _ hk⟩
  rw [hexec, modifyCell, readCell_eq_ok.2 hc, withRead_ok]; rfl

end

/-- Settles O26: the two bytes of four times the operand. -/
theorem setCjtStoresField : Obligations.SetCjtStoresField := by
  intro s v
  have hbytes : splitBytes 2 (encCJT (intOperand v)) = [(v <<< 2).extractLsb' 8 8, (v <<< 2).extractLsb' 0 8] := by
    rw [encCJT_intOperand, splitBytes_two_low_half]
  exact exec_setRaw_two_cells (q := .cjt) rfl rfl hbytes (by decide)

/-- Settles O27: the two low bytes of the operand. -/
theorem setThresholdsStoreField : Obligations.SetThresholdsStoreField := by
  intro s v
  have hbytes : splitBytes 2 (encS16 (intOperand v)) = [v.extractLsb' 8 8, v.extractLsb' 0 8] := by
    rw [encS16_intOperand, splitBytes_two_low_half]
  exact ⟨exec_setRaw_two_cells (q := .lthft) rfl rfl hbytes (by decide),
    exec_setRaw_two_cells (q := .ltlft) rfl rfl hbytes (by decide)⟩

/-- Settles O28: the low byte of the operand. -/
theorem setSignedByteStoresField : Obligations.SetSignedByteStoresField := by
  intro s v p hp
  have hbytes : splitBytes 1 (encS8 (intOperand v)) = [v.extractLsb' 0 8] := by
    rw [encS8_intOperand, splitBytes_one, BitVec.extractLsb'_eq_self]
  simp only [List.mem_cons, List.not_mem_nil, or_false] at hp
  rcases hp with rfl | rfl | rfl
  · exact exec_setRaw_one_cell (q := .cjhf) (first := 3) rfl rfl hbytes (by decide)
  · exact exec_setRaw_one_cell (q := .cjlf) (first := 4) rfl rfl hbytes (by decide)
  · exact exec_setRaw_one_cell (q := .cjto) (first := 9) rfl rfl hbytes (by decide)

/-- Settles O29: the operand's low four bits beside the nibble that is kept. -/
theorem setNibblesKeepTheOther : Obligations.SetNibblesKeepTheOther := by
  intro s c v hc
  have hnibble : BitVec.ofInt 4 (intOperand v) = v.extractLsb' 0 4 := ofInt_intOperand (by decide) v
  rw [← hnibble]
  exact ⟨exec_modifyCell_stores (change := fun c => putHi c (intOperand v)) rfl hc,
    exec_modifyCell_stores (change := fun c => putLo c (intOperand v)) rfl hc⟩

end Sys2Proof.Machine
end

section
/-! Exact results, signs and patterns of binary32: where `rne32` need not round, when it gives a zero, and that every
rounded result has a pattern (43_codec_float.md R200, R205). -/

namespace Sys2Proof.Machine

section
variable {neg s : Bool} {num den k t u : Nat} {p : Word} {x : ℚ} {f : F32}

/-! Exact results and zeros of `rne32` -/

/-- A quotient with a 24-bit significand is not rounded (43_codec_float.md R205). -/
theorem rne32_of_exact (neg : Bool) (hden : 0 < den) (hk : k < 2 ^ 24) (hnum : num = k * 2 ^ t * den) :
    rne32 neg num den = if k * 2 ^ t < 2 ^ 24 * 2 ^ 253 then .fin neg (k * 2 ^ t) else .inf neg := by
  obtain ⟨t', k', h, hrne⟩ := rne32_cases neg num hden
  have hr : (num : ℚ) / den = (k : Int) * 2 ^ t := by
    rw [div_eq_iff (by positivity), hnum]; push_cast; rfl
  obtain ⟨hle, -⟩ := h.le_abs_sub (m := k) (by rw [abs_lt]; omega) t
  rw [hr, sub_self, abs_zero, abs_nonpos_iff, sub_eq_zero] at hle
  have heq : k' * 2 ^ t' = k * 2 ^ t := by exact_mod_cast hle.symm
  rw [hrne, heq]

/-- A result keeps the sign it was given, and is a zero only if the exact quotient is at most half a unit. -/
theorem rne32_eq_fin (hden : 0 < den) (h : rne32 neg num den = .fin s u) : s = neg ∧ (u = 0 → 2 * num ≤ den) := by
  obtain ⟨t, k, hround, hrne⟩ := rne32_cases neg num hden
  rw [hrne] at h
  split_ifs at h with hlt
  cases h
  refine ⟨rfl, fun hzero => ?_⟩
  obtain rfl : k = 0 := by simpa using hzero
  obtain rfl : t = 0 := by_contra fun ht => absurd (hround.le_sig ht) (by norm_num)
  have hnear := (abs_le.1 hround.nearest.near).2
  rw [pow_zero, div_one, Nat.cast_zero, sub_zero, div_le_div_iff₀ (by exact_mod_cast hden) two_pos] at hnear
  exact_mod_cast (by linarith : (2 : ℚ) * num ≤ den)

/-! Patterns -/

theorem ofBits_bits_ofBits (p : Word) : F32.ofBits (F32.ofBits p).bits = F32.ofBits p := by
  obtain ⟨hpattern, hnan⟩ := patternsRoundTrip
  by_cases hp : F32.ofBits p = .nan
  · rw [hp, hnan]
  · rw [hpattern p hp]

/-- A rounded result is the value of its own pattern. -/
theorem RoundsTo.ofBits_bits (h : RoundsTo x f) : F32.ofBits f.bits = f := by
  have hpattern : ∃ p, F32.ofBits p = f := by
    unfold RoundsTo at h
    split_ifs at h
    · obtain ⟨p, _, hp, -⟩ := h
      exact ⟨p, hp⟩
    · refine ⟨packFields (decide (x < 0)) 255 0, ?_⟩
      rw [ofBits_packFields _ (by norm_num) (by norm_num), h, if_pos rfl, if_pos rfl]
  obtain ⟨p, rfl⟩ := hpattern
  exact ofBits_bits_ofBits p

theorem ofBits_bits_rne32 (neg : Bool) (num : Nat) (hden : 0 < den) :
    F32.ofBits (rne32 neg num den).bits = rne32 neg num den :=
  (rne32_roundsTo hden rfl).ofBits_bits

/-- A finite pattern's units have a 24-bit significand. -/
theorem exists_significand_of_ofBits (h : F32.ofBits p = .fin neg u) : ∃ k t, k < 2 ^ 24 ∧ u = k * 2 ^ t := by
  obtain ⟨m, e, hm, hv⟩ := value_ofBits (p := p) (by rw [h, value_fin])
  rw [div_left_inj' (by positivity)] at hv
  have habs : |signFactor neg * u| = |(m : ℚ) * 2 ^ e| := congrArg _ hv
  rw [abs_mul, abs_signFactor, one_mul, Nat.abs_cast, abs_mul, abs_of_pos (by positivity : (0 : ℚ) < 2 ^ e)] at habs
  refine ⟨m.natAbs, e, by rw [Int.abs_eq_natAbs] at hm; exact_mod_cast hm, ?_⟩
  rw [← Int.cast_abs, Int.abs_eq_natAbs] at habs
  exact_mod_cast habs

/-! Sums and products that are never -0.0 -/

theorem fadd_ne_negZero (x : F32) (n : Nat) : fadd x (.fin false n) ≠ .fin true 0 := by
  cases x with
  | nan => nofun
  | inf a => nofun
  | fin a m =>
    intro h
    simp only [fadd] at h
    split_ifs at h with hab hmn hlt
    · obtain ⟨hsign, -⟩ := rne32_eq_fin Nat.one_pos h
      exact absurd (hsign.trans hab) nofun
    · cases a <;> cases h
    · obtain ⟨-, hzero⟩ := rne32_eq_fin Nat.one_pos h
      have := hzero rfl
      omega
    · obtain ⟨hsign, -⟩ := rne32_eq_fin Nat.one_pos h
      exact absurd hsign nofun

/-- A product with a positive number of at least 1 is not rounded to a zero. -/
theorem fmul_ne_negZero {x : F32} {n : Nat} (hx : x ≠ .fin true 0) (hn : unitsPerOne ≤ n) :
    fmul x (.fin false n) ≠ .fin true 0 := by
  have hpos := unitsPerOne_pos
  cases x with
  | nan => nofun
  | inf a =>
    intro h
    simp only [fmul, if_neg (by omega : n ≠ 0)] at h
    cases h
  | fin a m =>
    intro h
    obtain ⟨hsign, hzero⟩ := rne32_eq_fin unitsPerOne_pos h
    have hm : m = 0 := by
      by_contra hm
      have := Nat.mul_le_mul (Nat.one_le_iff_ne_zero.2 hm) hn
      have := hzero rfl
      omega
    rw [Bool.xor_false] at hsign
    exact hx (by rw [hm, ← hsign])

end

end Sys2Proof.Machine
end

section
/-! A quantity's raw values: the field's range, and the raw value a setter leaves to be read (30_encoding.md R95,
42_codec_integer.md R169, R179). -/

namespace Sys2Proof.Machine

/-! The range of a field -/

/-- How many bits of its cells a quantity uses (30_encoding.md R95). -/
def Quantity.width (q : Quantity) : Nat :=
  match q with
  | .ltc => 19
  | .cjt => 14
  | .lthft => 16
  | .ltlft => 16
  | .cjhf => 8
  | .cjlf => 8
  | .cjto => 8

/-- A raw value the field can hold. -/
def Quantity.InRange (q : Quantity) (r : Int) : Prop := -2 ^ (q.width - 1) ≤ r ∧ r < 2 ^ (q.width - 1)

section
variable {q : Quantity} {s : State} {r v : Int} {n w : Nat}

theorem Quantity.width_pos (q : Quantity) : 0 < q.width := by cases q <;> decide

theorem sext_bounds (n w : Nat) : -2 ^ n ≤ 2 * sext n w ∧ 2 * sext n w < 2 ^ n :=
  ⟨BitVec.le_two_mul_toInt, BitVec.two_mul_toInt_lt⟩

theorem inRange_decode (q : Quantity) (w : Nat) : q.InRange (q.decode w) := by
  have h24 := sext_bounds 24 w
  have h16 := sext_bounds 16 w
  have h8 := sext_bounds 8 w
  cases q <;>
    simp only [Quantity.InRange, Quantity.width, Quantity.decode, decLTC, decCJT, decS16, decS8, asr_eq_div] <;>
    omega

theorem inRange_of_readRaw (h : readRaw s q = .ok r) : q.InRange r := by
  obtain ⟨w, -, rfl⟩ := readRaw_eq_ok.1 h
  exact inRange_decode q w

/-- Decode after encode is the value narrowed to the field (42_codec_integer.md R152, R154, R158). -/
theorem decode_encode (q : Quantity) (v : Int) : q.decode (q.encode v) = (BitVec.ofInt q.width v).toInt := by
  cases q with
  | ltc => exact decLTC_encLTC v
  | cjt => exact decCJT_encCJT v
  | lthft | ltlft => exact sext_trunc 16 v
  | cjhf | cjlf | cjto => exact sext_trunc 8 v

theorem decode_encode_of_inRange (h : q.InRange v) : q.decode (q.encode v) = v := by
  obtain ⟨hlo, hhi⟩ := h
  rw [decode_encode]
  exact BitVec.toInt_ofInt_eq_self q.width_pos hlo hhi

/-! Read after write -/

theorem foldl_splitBytes (acc n v : Nat) :
    (splitBytes n v).foldl (fun acc b => acc * 256 + b.toNat) acc = acc * 2 ^ (8 * n) + v % 2 ^ (8 * n) := by
  induction n generalizing acc with
  | zero => simp [splitBytes, Nat.mod_one]
  | succ n ih =>
    have hmod := Nat.mod_mul (x := v) (a := 2 ^ (8 * n)) (b := 256)
    rw [splitBytes, List.foldl_cons, ih, BitVec.toNat_ofNat, show 8 * (n + 1) = 8 * n + 8 from rfl, pow_add,
      show (2 : Nat) ^ 8 = 256 from rfl, hmod]
    ring

theorem concatBytes_splitBytes (h : w < 2 ^ (8 * n)) : concatBytes (splitBytes n w) = w := by
  rw [concatBytes, foldl_splitBytes, Nat.zero_mul, Nat.zero_add, Nat.mod_eq_of_lt h]

theorem encode_lt (q : Quantity) (v : Int) : q.encode v < 2 ^ (8 * q.cellCount) := by
  cases q <;> exact BitVec.isLt _

/-- A raw setter leaves the value it was given, narrowed to the field, to be read (42_codec_integer.md R179). -/
theorem readRaw_setRaw (q : Quantity) (v : Int) (s : State) :
    readRaw (setRaw q v s) q = .ok (q.decode (q.encode v)) := by
  have h16 : q.firstCell.toNat + (splitBytes q.cellCount (q.encode v)).length ≤ 16 := by
    rw [length_splitBytes]; cases q <;> decide
  have hcells : ∀ k (hk : k < (splitBytes q.cellCount (q.encode v)).length),
      (setRaw q v s).cell (q.firstCell + BitVec.ofNat 4 k) = some (splitBytes q.cellCount (q.encode v))[k] := by
    intro k hk
    have haddr : (q.firstCell + BitVec.ofNat 4 k).toNat = q.firstCell.toNat + k := by
      rw [BitVec.toNat_add, toNat_ofNat_cell (by omega), Nat.mod_eq_of_lt (by omega)]
    rw [State.cell, haddr, ← read_writeFrom_of_lt s h16 hk, BitVec.ofNat_toNat, BitVec.setWidth_eq]
    rfl
  have hread := readFrom_eq_ok.2 ⟨length_splitBytes _ _, hcells⟩
  refine readRaw_of_memRead ?_
  simp only [memRead, hread, concatBytes_splitBytes (encode_lt q v)]

end

end Sys2Proof.Machine
end

section
/-! The conversions between raw values and °C (43_codec_float.md R201, R203, R205): exact by the scales' being powers
of two. -/

namespace Sys2Proof.Machine

section
variable {q : Quantity} {r : Int} {neg : Bool} {n : Nat} {p : Word} {c : F32}

/-! The scales -/

theorem exists_scale_eq_two_pow (q : Quantity) : ∃ j ≤ 7, q.scale = 2 ^ j := by
  cases q with
  | ltc => exact ⟨7, by decide⟩
  | cjt => exact ⟨6, by decide⟩
  | lthft | ltlft | cjto => exact ⟨4, by decide⟩
  | cjhf | cjlf => exact ⟨0, by decide⟩

theorem Quantity.scale_pos (q : Quantity) : 0 < q.scale := by cases q <;> decide

theorem f32OfNat_scale (q : Quantity) : f32OfNat q.scale = .fin false (q.scale * unitsPerOne) := by
  cases q <;> decide

/-! To °C -/

theorem natAbs_lt_of_inRange (h : q.InRange r) : r.natAbs < 2 ^ 24 := by
  obtain ⟨hlo, hhi⟩ := h
  cases q <;> simp only [Quantity.width] at hlo hhi <;> omega

/-- R201: the quotient by the scale is exact. -/
theorem exists_toC_eq (h : q.InRange r) :
    ∃ n, toC q r = .fin (decide (r < 0)) n ∧ n * q.scale = r.natAbs * 2 ^ 149 := by
  obtain ⟨j, hj, hscale⟩ := exists_scale_eq_two_pow q
  have hpow : 2 ^ (149 - j) * q.scale = 2 ^ 149 := by
    rw [hscale, ← pow_add, Nat.sub_add_cancel (by omega)]
  have hlt : r.natAbs * 2 ^ (149 - j) < 2 ^ 24 * 2 ^ 253 :=
    Nat.mul_lt_mul_of_lt_of_le (natAbs_lt_of_inRange h) (Nat.pow_le_pow_right two_pos (by omega)) (by positivity)
  refine ⟨r.natAbs * 2 ^ (149 - j), ?_, by rw [Nat.mul_assoc, hpow]⟩
  rw [toC, rne32_of_exact (t := 149 - j) _ q.scale_pos (natAbs_lt_of_inRange h)
    (by rw [Nat.mul_assoc, hpow, unitsPerOne]), if_pos hlt]

theorem ofBits_bits_toC (q : Quantity) (r : Int) : F32.ofBits (toC q r).bits = toC q r :=
  ofBits_bits_rne32 _ _ q.scale_pos

/-- A raw 0 gives +0.0 (43_codec_float.md R201). -/
theorem toC_ne_negZero (h : q.InRange r) : toC q r ≠ .fin true 0 := by
  obtain ⟨n, htoC, hn⟩ := exists_toC_eq h
  rw [htoC]
  intro hneg
  injection hneg with hsign hzero
  rw [hzero, Nat.zero_mul] at hn
  have : r < 0 := of_decide_eq_true hsign
  omega

/-! From °C -/

theorem ftrunc_eq (neg : Bool) (n : Nat) : ftrunc neg n = (if neg then -1 else 1) * ((n / 2 ^ 149 : Nat) : Int) := by
  cases neg <;> simp [ftrunc, unitsPerOne]

theorem fmul_fin (a b : Bool) (m n : Nat) :
    fmul (.fin a m) (.fin b n) = rne32 (a ^^ b) (m * n) unitsPerOne := rfl

/-- R205: the product by the scale is exact, or past every binary32. -/
theorem fmul_scale (hp : F32.ofBits p = .fin neg n) (q : Quantity) :
    fmul (.fin neg n) (f32OfNat q.scale) =
      if n * q.scale < 2 ^ 24 * 2 ^ 253 then .fin neg (n * q.scale) else .inf neg := by
  obtain ⟨k, t, hk, rfl⟩ := exists_significand_of_ofBits hp
  obtain ⟨j, -, hscale⟩ := exists_scale_eq_two_pow q
  have hshift : k * 2 ^ t * q.scale = k * 2 ^ (t + j) := by rw [hscale, pow_add, Nat.mul_assoc]
  rw [f32OfNat_scale, hshift]
  have hnum : k * 2 ^ t * (q.scale * unitsPerOne) = k * 2 ^ (t + j) * unitsPerOne := by
    rw [← Nat.mul_assoc, hshift]
  rw [fmul_fin, Bool.xor_false]
  exact rne32_of_exact neg unitsPerOne_pos hk hnum

theorem fromC_of_fmul_eq_fin (h : fmul c (f32OfNat q.scale) = .fin neg n) :
    fromC q c = if ftrunc neg n < -2147483648 ∨ 2147483648 ≤ ftrunc neg n then none else some (ftrunc neg n) := by
  rw [fromC, h]

theorem fromC_of_fmul_eq_inf (h : fmul c (f32OfNat q.scale) = .inf neg) : fromC q c = none := by
  rw [fromC, h]

theorem fromC_nan (q : Quantity) : fromC q .nan = none := rfl

theorem fromC_inf (q : Quantity) (neg : Bool) : fromC q (.inf neg) = none := by
  have hne : q.scale * unitsPerOne ≠ 0 := Nat.mul_ne_zero q.scale_pos.ne' unitsPerOne_pos.ne'
  refine fromC_of_fmul_eq_inf (neg := neg ^^ false) ?_
  rw [f32OfNat_scale, fmul, if_neg hne]

/-- R203 for a finite value: its truncated product with the scale, where that is a 32-bit integer. -/
theorem fromC_fin (hp : F32.ofBits p = .fin neg n) (q : Quantity) :
    fromC q (.fin neg n) =
      if ftrunc neg (n * q.scale) < -2147483648 ∨ 2147483648 ≤ ftrunc neg (n * q.scale) then none
      else some (ftrunc neg (n * q.scale)) := by
  have hmul := fmul_scale hp q
  split_ifs at hmul with hlt
  · exact fromC_of_fmul_eq_fin hmul
  · have hout : ftrunc neg (n * q.scale) < -2147483648 ∨ 2147483648 ≤ ftrunc neg (n * q.scale) := by
      rw [ftrunc_eq]
      cases neg with
      | false => rw [if_neg nofun]; omega
      | true => rw [if_pos rfl]; omega
    rw [fromC_of_fmul_eq_inf hmul, if_pos hout]

/-- R205(c): the scale undoes the division by it. -/
theorem fromC_toC (h : q.InRange r) : fromC q (toC q r) = some r := by
  obtain ⟨n, htoC, hn⟩ := exists_toC_eq h
  have htrunc : ftrunc (decide (r < 0)) (n * q.scale) = r := by
    rw [hn, ftrunc_eq, Nat.mul_div_cancel _ (by positivity)]
    by_cases hr : r < 0
    · rw [decide_eq_true hr, if_pos rfl]; omega
    · rw [decide_eq_false hr, if_neg nofun]; omega
  have hp := ofBits_bits_toC q r
  have hbound := natAbs_lt_of_inRange h
  rw [htoC] at hp ⊢
  rw [fromC_fin hp, htrunc, if_neg (by omega)]

end

end Sys2Proof.Machine
end

section
/-! The float getters and setters that go through °C alone (43_codec_float.md R201, R203, R209, R229). -/

namespace Sys2Proof.Machine

section
variable {q : Quantity} {s : State} {r v : Int} {n : Nat} {neg : Bool} {f : Word} {c : F32} {i : Instr}
  {p : Word} {convert : Quantity → F32 → Option Int}

/-! The commands of each list -/

theorem exec_celsiusGetters : ∀ p ∈ celsiusGetters, ∀ s, exec p.2 s = .next (getFloat p.1 toC s) := by
  intro p hp s
  unfold celsiusGetters at hp
  fin_cases hp <;> rfl

theorem exec_fahrenheitGetters : ∀ p ∈ fahrenheitGetters, ∀ s, exec p.2 s = .next (getFloat p.1 toF s) := by
  intro p hp s
  unfold fahrenheitGetters at hp
  fin_cases hp <;> rfl

/-- The float setter of a quantity by way of `convert`, with the integer setter it follows (43_codec_float.md R229). -/
structure FloatSetter (convert : Quantity → F32 → Option Int) (q : Quantity) (float integer : Word → Instr) :
    Prop where
  float_eq : ∀ f s, exec (float f) s = .next (setFloat q convert f s)
  integer_eq : ∀ v s, exec (integer v) s = .next (setRaw q (intOperand v) s)

theorem floatSetter_celsiusSetters : ∀ p ∈ celsiusSetters, FloatSetter fromC p.1 p.2.1 p.2.2 := by
  intro p hp
  unfold celsiusSetters at hp
  fin_cases hp <;> exact ⟨fun _ _ => rfl, fun _ _ => rfl⟩

theorem floatSetter_fahrenheitSetters : ∀ p ∈ fahrenheitSetters, FloatSetter fromF p.1 p.2.1 p.2.2 := by
  intro p hp
  unfold fahrenheitSetters at hp
  fin_cases hp <;> exact ⟨fun _ _ => rfl, fun _ _ => rfl⟩

/-- The float getter and the float setter of a quantity, of one form. -/
structure FloatPair (toFloat : Quantity → Int → F32) (ofFloat : Quantity → F32 → Option Int) (q : Quantity)
    (getter : Instr) (setter : Word → Instr) : Prop where
  getter_eq : ∀ s, exec getter s = .next (getFloat q toFloat s)
  setter_eq : ∀ f s, exec (setter f) s = .next (setFloat q ofFloat f s)

theorem floatPair_celsiusPairs : ∀ p ∈ celsiusPairs, FloatPair toC fromC p.1 p.2.1 p.2.2 := by
  intro p hp
  unfold celsiusPairs at hp
  fin_cases hp <;> exact ⟨fun _ => rfl, fun _ _ => rfl⟩

theorem floatPair_fahrenheitPairs : ∀ p ∈ fahrenheitPairs, FloatPair toF fromF p.1 p.2.1 p.2.2 := by
  intro p hp
  unfold fahrenheitPairs at hp
  fin_cases hp <;> exact ⟨fun _ => rfl, fun _ _ => rfl⟩

/-! What a float getter answers and a float setter does -/

theorem getFloat_of_readRaw {toFloat : Quantity → Int → F32} (h : readRaw s q = .ok r) :
    getFloat q toFloat s = { s with responses := s.responses ++ [⟨0#3, (toFloat q r).bits⟩] } := by
  rw [getFloat, h, withRead_ok]; rfl

theorem setFloat_of_eq_some (h : convert q (F32.ofBits f) = some v) : setFloat q convert f s = setRaw q v s := by
  rw [setFloat, h]

theorem setFloat_of_eq_none (h : convert q (F32.ofBits f) = none) :
    setFloat q convert f s = { s with responses := s.responses ++ [⟨5#3, 0#32⟩] } := by
  rw [setFloat, h]; rfl

/-- Setting from the float a getter answers stores what the conversion gives for it, if the field holds that. -/
theorem FloatPair.exists_roundTrip {toFloat : Quantity → Int → F32} {setter : Word → Instr}
    (h : FloatPair toFloat convert q i setter) (s' : State) (hread : readRaw s q = .ok r)
    (hpattern : F32.ofBits (toFloat q r).bits = toFloat q r) (hconv : convert q (toFloat q r) = some v)
    (hrange : q.InRange v) :
    ∃ (f : Word) (u : State), exec i s = .next { s with responses := s.responses ++ [⟨0#3, f⟩] } ∧
      exec (setter f) s' = .next u ∧ u.responses = s'.responses ++ [⟨0#3, 0#32⟩] ∧ readRaw u q = .ok v := by
  refine ⟨(toFloat q r).bits, setRaw q v s', ?_, ?_, ?_, ?_⟩
  · rw [h.getter_eq, getFloat_of_readRaw hread]
  · rw [h.setter_eq, setFloat_of_eq_some (by rw [hpattern, hconv])]
  · rw [setRaw_eq]
  · rw [readRaw_setRaw, decode_encode_of_inRange hrange]

namespace FloatSetter

variable {float integer : Word → Instr}

/-- R229: the integer setter of the truncated product, where that is a 32-bit integer. -/
theorem exec_of_fin (h : FloatSetter convert q float integer) (s : State)
    (hconv : convert q (F32.ofBits f) = fromC q (.fin neg n)) (hp : F32.ofBits p = .fin neg n)
    (hv : v = (if neg then -1 else 1) * ((n * q.scale / 2 ^ 149 : Nat) : Int))
    (hlo : -2147483648 ≤ v) (hhi : v < 2147483648) :
    ∃ u, exec (float f) s = .next u ∧ exec (integer (BitVec.ofInt 32 v)) s = .next u := by
  rw [← ftrunc_eq] at hv
  have hsome : convert q (F32.ofBits f) = some v := by rw [hconv, fromC_fin hp, ← hv, if_neg (by omega)]
  have hoperand : intOperand (BitVec.ofInt 32 v) = v := BitVec.toInt_ofInt_eq_self (by decide) hlo hhi
  exact ⟨setRaw q v s, by rw [h.float_eq, setFloat_of_eq_some hsome], by rw [h.integer_eq, hoperand]⟩

theorem exec_of_none (h : FloatSetter convert q float integer) (s : State)
    (hconv : convert q (F32.ofBits f) = none) :
    exec (float f) s = .next { s with responses := s.responses ++ [⟨5#3, 0#32⟩] } := by
  rw [h.float_eq, setFloat_of_eq_none hconv]

/-- R203, R307: refused where the truncated product has no 32-bit integer. -/
theorem exec_of_fin_out (h : FloatSetter convert q float integer) (s : State)
    (hconv : convert q (F32.ofBits f) = fromC q (.fin neg n)) (hp : F32.ofBits p = .fin neg n)
    (hv : v = (if neg then -1 else 1) * ((n * q.scale / 2 ^ 149 : Nat) : Int))
    (hout : v < -2147483648 ∨ 2147483648 ≤ v) :
    exec (float f) s = .next { s with responses := s.responses ++ [⟨5#3, 0#32⟩] } := by
  rw [← ftrunc_eq] at hv
  exact h.exec_of_none s (by rw [hconv, fromC_fin hp, ← hv, if_pos hout])

/-- R203, R307: a NaN and the infinities are refused. -/
theorem exec_of_not_finite (h : FloatSetter convert q float integer) (s : State)
    (hconv : convert q (F32.ofBits f) = fromC q c) (hc : c = .nan ∨ ∃ neg, c = .inf neg) :
    exec (float f) s = .next { s with responses := s.responses ++ [⟨5#3, 0#32⟩] } := by
  refine h.exec_of_none s ?_
  obtain rfl | ⟨neg, rfl⟩ := hc
  · rw [hconv, fromC_nan]
  · rw [hconv, fromC_inf]

end FloatSetter

end

/-- Settles O36: the quotient is exact, so it is the value of the pattern answered. -/
theorem celsiusGettersAreExact : Obligations.CelsiusGettersAreExact := by
  intro p hp s r hr
  obtain ⟨n, htoC, hn⟩ := exists_toC_eq (inRange_of_readRaw hr)
  refine ⟨(toC p.1 r).bits, n, ?_, by rw [ofBits_bits_toC, htoC], hn⟩
  rw [exec_celsiusGetters p hp, getFloat_of_readRaw hr]

/-- Settles O39: the product with the scale is exact, so truncating it is division of the units. -/
theorem celsiusSettersTruncate : Obligations.CelsiusSettersTruncate :=
  fun p hp s f _ _ _ hf hv hlo hhi =>
    (floatSetter_celsiusSetters p hp).exec_of_fin s (by rw [hf]) hf hv hlo hhi

/-- Settles O40: in each of the three cases the conversion gives no integer. -/
theorem celsiusSettersRefuse : Obligations.CelsiusSettersRefuse := by
  intro p hp s f hf
  have hsetter := floatSetter_celsiusSetters p hp
  rcases hf with hnan | hinf | ⟨neg, n, v, hfin, hv, hout⟩
  · exact hsetter.exec_of_not_finite s rfl (.inl hnan)
  · exact hsetter.exec_of_not_finite s rfl (.inr hinf)
  · exact hsetter.exec_of_fin_out s (by rw [hfin]) hfin hv hout

/-- Settles O42: neither the quotient nor the product with the scale is rounded. -/
theorem celsiusRoundTripIsExact : Obligations.CelsiusRoundTripIsExact := by
  intro p hp s s' r hr
  have hrange := inRange_of_readRaw hr
  exact (floatPair_celsiusPairs p hp).exists_roundTrip s' hr (ofBits_bits_toC p.1 r) (fromC_toC hrange) hrange

end Sys2Proof.Machine
end

section
/-! What one rounding of the Fahrenheit formulas can lose (43_codec_float.md R202, R204): binary32 is spaced by at most
2^-11 below 2^13, where all their values lie. -/

namespace Sys2Proof.Machine

/-! Rounding of numbers below 2^13 -/

theorem signFactor_mul_abs (x : ℚ) : signFactor (decide (x < 0)) * |x| = x := by
  by_cases hx : x < 0
  · rw [decide_eq_true hx, signFactor, if_pos rfl, abs_of_neg hx, neg_one_mul, neg_neg]
  · rw [decide_eq_false hx, signFactor, if_neg nofun, abs_of_nonneg (not_lt.1 hx), one_mul]

/-- Cutting off the binary places after the eleventh leaves a number with a pattern. -/
theorem exists_value_near {x : ℚ} (hx : |x| < 2 ^ 13) :
    ∃ p v, (F32.ofBits p).value = some v ∧ |x - v| ≤ 1 / 2 ^ 11 := by
  have hnonneg : 0 ≤ |x| * 2 ^ 11 := by positivity
  have hk : ⌊|x| * 2 ^ 11⌋₊ < 2 ^ 24 := by
    rw [Nat.floor_lt hnonneg]; push_cast; linarith
  have hlo := Nat.floor_le hnonneg
  have hhi := Nat.lt_floor_add_one (|x| * 2 ^ 11)
  generalize ⌊|x| * 2 ^ 11⌋₊ = k at hk hlo hhi
  have hlt : k * 2 ^ 138 < 2 ^ 24 * 2 ^ 253 := by omega
  have hexact := rne32_of_exact (t := 138) (decide (x < 0)) Nat.one_pos hk (Nat.mul_one _).symm
  rw [if_pos hlt] at hexact
  refine ⟨(F32.fin (decide (x < 0)) (k * 2 ^ 138)).bits, signFactor (decide (x < 0)) * (k / 2 ^ 11), ?_, ?_⟩
  · rw [← hexact, ofBits_bits_rne32 _ _ Nat.one_pos, hexact, value_fin]
    congr 1
    push_cast; ring
  · nth_rw 1 [← signFactor_mul_abs x]
    rw [← mul_sub, abs_mul, abs_signFactor, one_mul, abs_le]
    constructor <;> linarith

/-- `f` is the value of its pattern, finite, and at most `ε` away from `x`. -/
def Near (f : F32) (x ε : ℚ) : Prop := F32.ofBits f.bits = f ∧ ∃ v, f.value = some v ∧ |v - x| ≤ ε

section
variable {f : F32} {x ε : ℚ}

theorem Near.mono {ε' : ℚ} (h : Near f x ε) (hε : ε ≤ ε') : Near f x ε' := by
  obtain ⟨hbits, v, hv, herr⟩ := h
  exact ⟨hbits, v, hv, herr.trans hε⟩

theorem Near.exists_fin (h : Near f x ε) :
    ∃ neg n, f = .fin neg n ∧ F32.ofBits f.bits = .fin neg n ∧ |signFactor neg * n / 2 ^ 149 - x| ≤ ε := by
  obtain ⟨hbits, v, hv, herr⟩ := h
  obtain ⟨neg, n, rfl, rfl⟩ := value_eq_some hv
  exact ⟨neg, n, rfl, hbits, herr⟩

/-- A rounding of a number within `ε` of `x` is within `ε + 2^-11` of it. -/
theorem RoundsTo.near {y : ℚ} (h : RoundsTo y f) (hy : |y| < 2 ^ 13) (herr : |y - x| ≤ ε) :
    Near f x (ε + 1 / 2 ^ 11) := by
  refine ⟨h.ofBits_bits, ?_⟩
  rw [RoundsTo, if_pos (hy.trans (by norm_num))] at h
  obtain ⟨_, v, -, hv, hnearest⟩ := h
  obtain ⟨p', v', hv', hnear⟩ := exists_value_near hy
  obtain ⟨hle, -⟩ := hnearest p' v' hv'
  have htri := abs_sub_le v y x
  rw [abs_sub_comm v y] at htri
  exact ⟨v, hv, by linarith⟩

/-! The constants and the operations of the formulas -/

theorem c18_eq : c18 = .fin false (15099494 * 2 ^ 126) := by decide

theorem f32OfNat_32_eq : f32OfNat 32 = .fin false (32 * 2 ^ 149) := by decide

theorem c18_value : c18.value = some (15099494 / 2 ^ 23) := by
  rw [c18_eq, value_fin, signFactor]; norm_num

theorem f32OfNat_32_value : (f32OfNat 32).value = some 32 := by
  rw [f32OfNat_32_eq, value_fin, signFactor]; norm_num

theorem Near.fmul_c18 (h : Near f x ε) (hx : |x| + ε ≤ 2 ^ 12) :
    Near (fmul f c18) (x * (15099494 / 2 ^ 23)) (2 * ε + 1 / 2 ^ 11) := by
  obtain ⟨-, v, hv, herr⟩ := h
  have htri := abs_sub_abs_le_abs_sub v x
  have hc : |(15099494 / 2 ^ 23 : ℚ)| = 15099494 / 2 ^ 23 := abs_of_pos (by norm_num)
  refine (fmul_roundsTo hv c18_value).near ?_ ?_
  · rw [abs_mul, hc]; linarith
  · rw [← sub_mul, abs_mul, hc]; linarith [abs_nonneg (v - x)]

theorem Near.fadd_32 (h : Near f x ε) (hx : |x| + ε ≤ 2 ^ 12) :
    Near (fadd f (f32OfNat 32)) (x + 32) (ε + 1 / 2 ^ 11) := by
  obtain ⟨-, v, hv, herr⟩ := h
  have htri := abs_sub_abs_le_abs_sub v x
  have hsum := abs_add_le v 32
  refine (fadd_roundsTo hv f32OfNat_32_value).near ?_ (by rwa [add_sub_add_right_eq_sub])
  rw [abs_of_pos (by norm_num : (0 : ℚ) < 32)] at hsum
  linarith

theorem Near.fsub_32 (h : Near f x ε) (hx : |x| + ε ≤ 2 ^ 12) :
    Near (fsub f (f32OfNat 32)) (x - 32) (ε + 1 / 2 ^ 11) := by
  obtain ⟨-, v, hv, herr⟩ := h
  have htri := abs_sub_abs_le_abs_sub v x
  have hdiff := abs_sub v 32
  refine (fsub_roundsTo hv f32OfNat_32_value).near ?_ (by rwa [sub_sub_sub_cancel_right])
  rw [abs_of_pos (by norm_num : (0 : ℚ) < 32)] at hdiff
  linarith

theorem Near.fdiv_c18 (h : Near f x ε) (hx : |x| + ε ≤ 2 ^ 12) :
    Near (fdiv f c18) (x / (15099494 / 2 ^ 23)) (ε + 1 / 2 ^ 11) := by
  obtain ⟨-, v, hv, herr⟩ := h
  have htri := abs_sub_abs_le_abs_sub v x
  have hc : |(15099494 / 2 ^ 23 : ℚ)| = 15099494 / 2 ^ 23 := abs_of_pos (by norm_num)
  refine (fdiv_roundsTo hv c18_value (by norm_num)).near ?_ ?_
  · rw [abs_div, hc]; linarith [abs_nonneg v]
  · rw [← sub_div, abs_div, hc]; linarith [abs_nonneg (v - x)]

end

end Sys2Proof.Machine
end

section
/-! The Fahrenheit conversions (43_codec_float.md R202, R204, R250): the four roundings of a round trip together lose
less than one raw unit, and the truncation after them at most one. -/

namespace Sys2Proof.Machine

section
variable {f : F32} {x ε : ℚ} {q : Quantity} {r : Int}

/-! The conversions -/

theorem toF_eq (q : Quantity) (r : Int) :
    toF q r = if q = .cjto then fmul (toC q r) c18 else fadd (fmul (toC q r) c18) (f32OfNat 32) := by
  cases q with
  | cjto => rw [toF, if_pos rfl]
  | ltc | cjt | lthft | ltlft | cjhf | cjlf => rw [toF, if_neg nofun]; nofun

/-- The value in °C that R204 makes of one in °F, the offset being a difference. -/
def toCelsius (q : Quantity) (f : F32) : F32 :=
  if q = .cjto then fdiv f c18 else fdiv (fsub f (f32OfNat 32)) c18

theorem fromF_eq (q : Quantity) (f : F32) : fromF q f = fromC q (toCelsius q f) := by
  cases q <;> rfl

theorem abs_raw_div_scale_le (h : q.InRange r) : |(r : ℚ) / q.scale| ≤ 2 ^ 11 := by
  have hscale : (0 : ℚ) < q.scale := by exact_mod_cast q.scale_pos
  have hr : |r| ≤ 2 ^ 11 * q.scale := by
    obtain ⟨hlo, hhi⟩ := h
    rw [abs_le]
    cases q <;> simp only [Quantity.width, Quantity.scale] at hlo hhi ⊢ <;> omega
  rw [abs_div, abs_of_pos hscale, div_le_iff₀ hscale]
  exact_mod_cast hr

theorem near_toC (h : q.InRange r) : Near (toC q r) (r / q.scale) 0 := by
  obtain ⟨n, htoC, hn⟩ := exists_toC_eq h
  have hscale : (0 : ℚ) < q.scale := by exact_mod_cast q.scale_pos
  have hsign : signFactor (decide (r < 0)) * (r.natAbs : ℚ) = r := by
    have hcast := signFactor_mul_abs (r : ℚ)
    rw [← Int.cast_abs, Int.abs_eq_natAbs, Int.cast_natCast] at hcast
    simpa only [Int.cast_lt_zero] using hcast
  have hn' : (n : ℚ) * q.scale = r.natAbs * 2 ^ 149 := by exact_mod_cast hn
  refine ⟨ofBits_bits_toC q r, r / q.scale, ?_, by rw [sub_self, abs_zero]⟩
  rw [htoC, value_fin, ← hsign, eq_div_of_mul_eq hscale.ne' hn']
  congr 1
  field_simp

/-- R202 loses at most two roundings. -/
theorem near_toF (h : q.InRange r) :
    Near (toF q r) (if q = .cjto then r / q.scale * (15099494 / 2 ^ 23) else r / q.scale * (15099494 / 2 ^ 23) + 32)
      (2 / 2 ^ 11) := by
  have hx := abs_raw_div_scale_le h
  have hmul := (near_toC h).fmul_c18 (by linarith)
  rw [toF_eq]
  split_ifs
  · exact hmul.mono (by norm_num)
  · refine (hmul.fadd_32 ?_).mono (by norm_num)
    rw [abs_mul, abs_of_pos (by norm_num : (0 : ℚ) < 15099494 / 2 ^ 23)]
    linarith

/-- R202 and then R204 lose at most four roundings. -/
theorem near_toCelsius_toF (h : q.InRange r) : Near (toCelsius q (toF q r)) (r / q.scale) (4 / 2 ^ 11) := by
  have hx := abs_raw_div_scale_le h
  have hF := near_toF h
  have hxc : |(r : ℚ) / q.scale * (15099494 / 2 ^ 23)| ≤ 15099494 / 2 ^ 12 := by
    rw [abs_mul, abs_of_pos (by norm_num : (0 : ℚ) < 15099494 / 2 ^ 23)]
    linarith
  have hback := mul_div_cancel_right₀ ((r : ℚ) / q.scale) (by norm_num : (15099494 / 2 ^ 23 : ℚ) ≠ 0)
  unfold toCelsius
  split_ifs at hF ⊢ with hq
  · have hdiv := hF.fdiv_c18 (by linarith)
    rw [hback] at hdiv
    exact hdiv.mono (by norm_num)
  · have hsum := abs_add_le ((r : ℚ) / q.scale * (15099494 / 2 ^ 23)) 32
    rw [abs_of_pos (by norm_num : (0 : ℚ) < 32)] at hsum
    have hsub := hF.fsub_32 (by linarith)
    rw [add_sub_cancel_right] at hsub
    have hdiv := hsub.fdiv_c18 (by linarith)
    rw [hback] at hdiv
    exact hdiv.mono (by norm_num)

/-! Truncation after an error of less than one unit -/

/-- Truncation of a number less than 1 from `r` goes to `r` or one toward zero. -/
theorem ftrunc_near {neg : Bool} {n : Nat} (h : |signFactor neg * n / 2 ^ 149 - r| < 1) :
    (0 ≤ r → r - 1 ≤ ftrunc neg n ∧ 0 ≤ ftrunc neg n ∧ ftrunc neg n ≤ r) ∧
      (r ≤ 0 → ftrunc neg n ≤ r + 1 ∧ ftrunc neg n ≤ 0 ∧ r ≤ ftrunc neg n) := by
  obtain ⟨hlo, hhi⟩ := abs_lt.1 h
  rw [ftrunc_eq]
  cases neg with
  | false =>
    rw [signFactor, if_neg nofun] at hlo hhi
    have hlo' : (r - 1) * 2 ^ 149 < (n : Int) := by
      exact_mod_cast (by linarith : ((r : ℚ) - 1) * 2 ^ 149 < n)
    have hhi' : (n : Int) < (r + 1) * 2 ^ 149 := by
      exact_mod_cast (by linarith : (n : ℚ) < ((r : ℚ) + 1) * 2 ^ 149)
    rw [if_neg nofun]
    omega
  | true =>
    rw [signFactor, if_pos rfl] at hlo hhi
    have hlo' : (r - 1) * 2 ^ 149 < -(n : Int) := by
      exact_mod_cast (by linarith : ((r : ℚ) - 1) * 2 ^ 149 < -n)
    have hhi' : -(n : Int) < (r + 1) * 2 ^ 149 := by
      exact_mod_cast (by linarith : -(n : ℚ) < ((r : ℚ) + 1) * 2 ^ 149)
    rw [if_pos rfl]
    omega

theorem exists_fromF_toF (h : q.InRange r) : ∃ v, fromF q (toF q r) = some v ∧ q.InRange v ∧ (v - r).natAbs ≤ 1 := by
  obtain ⟨neg, n, hc, hp, herr⟩ := (near_toCelsius_toF h).exists_fin
  have hscale : (0 : ℚ) < q.scale := by exact_mod_cast q.scale_pos
  have hle : (q.scale : ℚ) ≤ 128 := by exact_mod_cast (by cases q <;> decide : q.scale ≤ 128)
  have hunit : |signFactor neg * (n * q.scale : Nat) / 2 ^ 149 - r| < 1 := by
    have hfactor : signFactor neg * (n * q.scale : Nat) / 2 ^ 149 - r =
        (signFactor neg * n / 2 ^ 149 - r / q.scale) * q.scale := by
      push_cast; field_simp
    rw [hfactor, abs_mul, abs_of_pos hscale]
    calc _ ≤ (4 / 2 ^ 11 * 128 : ℚ) := mul_le_mul herr hle hscale.le (by norm_num)
      _ < 1 := by norm_num
  obtain ⟨hpos, hneg⟩ := ftrunc_near hunit
  have hrange : q.InRange (ftrunc neg (n * q.scale)) := by
    obtain ⟨hlo, hhi⟩ := h
    have hhalf : (0 : Int) < 2 ^ (q.width - 1) := by positivity
    constructor <;> omega
  have hbound := natAbs_lt_of_inRange hrange
  refine ⟨ftrunc neg (n * q.scale), ?_, hrange, by omega⟩
  rw [fromF_eq, hc, fromC_fin hp, if_neg (by omega)]

/-! Signs and values that are not finite -/

theorem toF_ne_negZero (h : q.InRange r) : toF q r ≠ .fin true 0 := by
  have hmul : fmul (toC q r) c18 ≠ .fin true 0 := by
    rw [c18_eq]
    exact fmul_ne_negZero (toC_ne_negZero h) (by decide)
  rw [toF_eq]
  split_ifs
  · exact hmul
  · rw [f32OfNat_32_eq]
    exact fadd_ne_negZero _ _

theorem toCelsius_nan (q : Quantity) : toCelsius q .nan = .nan := by
  unfold toCelsius
  split_ifs <;> rfl

theorem fdiv_inf_c18 (neg : Bool) : fdiv (.inf neg) c18 = .inf neg := by
  rw [c18_eq, fdiv, Bool.xor_false]

theorem toCelsius_inf (q : Quantity) (neg : Bool) : toCelsius q (.inf neg) = .inf neg := by
  have hsub : fsub (.inf neg) (f32OfNat 32) = .inf neg := by rw [f32OfNat_32_eq, fsub, fneg, fadd]
  rw [toCelsius, hsub, ite_self, fdiv_inf_c18]

/-- A finite quotient by C18 is the value of its pattern. -/
theorem ofBits_bits_fdiv_c18 {neg : Bool} {n : Nat} (h : fdiv f c18 = .fin neg n) :
    F32.ofBits (F32.fin neg n).bits = .fin neg n := by
  cases f with
  | nan => cases h
  | inf a => rw [fdiv_inf_c18] at h; cases h
  | fin a m => rw [← h]; exact (fdiv_roundsTo (value_fin a m) c18_value (by norm_num)).ofBits_bits

theorem ofBits_bits_toCelsius {neg : Bool} {n : Nat} (h : toCelsius q f = .fin neg n) :
    F32.ofBits (F32.fin neg n).bits = .fin neg n := by
  unfold toCelsius at h
  split_ifs at h
  · exact ofBits_bits_fdiv_c18 h
  · exact ofBits_bits_fdiv_c18 h

/-- A finite value that is not -0.0 is answered as one (43_codec_float.md R209). -/
theorem Near.getFloat_answer {convert : Quantity → Int → F32} {s : State} {i : Instr}
    (h : Near (convert q r) x ε) (hne : convert q r ≠ .fin true 0) (hread : readRaw s q = .ok r)
    (hexec : exec i s = .next (getFloat q convert s)) :
    ∃ (f : Word) (neg : Bool) (n : Nat), exec i s = .next { s with responses := s.responses ++ [⟨0#3, f⟩] } ∧
      F32.ofBits f = .fin neg n ∧ (n = 0 → neg = false) := by
  obtain ⟨neg, n, hfin, hbits, -⟩ := h.exists_fin
  refine ⟨(convert q r).bits, neg, n, by rw [hexec, getFloat_of_readRaw hread], hbits, fun hn => ?_⟩
  rw [hfin, hn] at hne
  exact Bool.eq_false_iff.2 fun hneg => hne (by rw [hneg])

end

/-! The constants by their patterns -/

theorem ofBits_c18 : F32.ofBits 0x3FE66666#32 = c18 := by
  obtain ⟨hc18, -⟩ := conversionConstants
  exact hc18.symm

theorem ofBits_32 : F32.ofBits 0x42000000#32 = f32OfNat 32 := by
  obtain ⟨-, -, hbits, -⟩ := conversionConstants
  rw [← hbits]
  exact ofBits_bits_rne32 _ _ Nat.one_pos

/-- Settles O37: the formula's constants are the values of the two patterns. -/
theorem fahrenheitGettersFollowFormula : Obligations.FahrenheitGettersFollowFormula := by
  intro p hp s r hr
  rw [exec_fahrenheitGetters p hp, getFloat_of_readRaw hr, toF_eq, ofBits_c18, ofBits_32]

/-- Settles O38: a °C value is exact and a °F value near one below 2^13, and neither is a rounded negative zero. -/
theorem floatGettersAnswerFinite : Obligations.FloatGettersAnswerFinite := by
  intro p hp s r hr
  have hrange := inRange_of_readRaw hr
  rcases List.mem_append.1 hp with hp | hp
  · exact (near_toC hrange).getFloat_answer (toC_ne_negZero hrange) hr (exec_celsiusGetters p hp s)
  · exact (near_toF hrange).getFloat_answer (toF_ne_negZero hrange) hr (exec_fahrenheitGetters p hp s)

/-- Settles O41: R204 is R203 after the conversion to °C. -/
theorem fahrenheitSettersFollowFormula : Obligations.FahrenheitSettersFollowFormula := by
  intro p hp s f c hc
  have hsetter := floatSetter_fahrenheitSetters p hp
  rw [ofBits_c18, ofBits_32] at hc
  change c = toCelsius p.1 (F32.ofBits f) at hc
  have hconv : fromF p.1 (F32.ofBits f) = fromC p.1 c := by rw [fromF_eq, hc]
  refine ⟨fun neg n v hfin hv => ?_, hsetter.exec_of_not_finite s hconv, fun hnan => ?_, fun neg hinf => ?_⟩
  · have hp := ofBits_bits_toCelsius (hc.symm.trans hfin)
    rw [hfin] at hconv
    exact ⟨fun ⟨hlo, hhi⟩ => hsetter.exec_of_fin s hconv hp hv hlo hhi, hsetter.exec_of_fin_out s hconv hp hv⟩
  · rw [hc, hnan, toCelsius_nan]
  · rw [hc, hinf, toCelsius_inf]

/-- Settles O43: the four roundings lose less than one raw unit before the truncation. -/
theorem fahrenheitRoundTripWithinOne : Obligations.FahrenheitRoundTripWithinOne := by
  intro p hp s s' r hr
  have hrange := inRange_of_readRaw hr
  obtain ⟨hpattern, -⟩ := near_toF hrange
  obtain ⟨v, hconv, hv, hclose⟩ := exists_fromF_toF hrange
  obtain ⟨f, u, hget, hset, hresp, hread⟩ :=
    (floatPair_fahrenheitPairs p hp).exists_roundTrip s' hr hpattern hconv hv
  exact ⟨f, u, v, hget, hset, hresp, hread, hclose⟩

/-- Settles O44: the 256 round trips are computed. -/
theorem cjhfFahrenheitMisses : Obligations.CjhfFahrenheitMisses := by
  unfold Obligations.CjhfFahrenheitMisses
  decide +kernel

end Sys2Proof.Machine
end

section
/-! What a command answers (60_exceptions.md): one step gives one response or one recorded read, and each error comes
from its own commands. -/

namespace Sys2Proof.Machine

/-! The step -/

section
variable {s : State} {w : CmdWord} {rest : List CmdWord}

theorem step_of_recorded {f : Fault} (h : s.faultRecord = some f) : step s = .fault f := by
  rw [step, h]

theorem step_of_no_command (hfault : s.faultRecord = none) (hcommands : s.commands = []) : step s = .next s := by
  simp [step, takeCommand, hfault, hcommands]

theorem step_of_decode_eq_error {e : Reject} (hfault : s.faultRecord = none) (hcommands : s.commands = w :: rest)
    (hdecode : decode w = .error e) : step s = .next (raise .eIllegal { s with commands := rest }) := by
  simp [step, takeCommand, hfault, hcommands, hdecode]

end

/-- Settles O7: the fault record is looked at first, then the list of words; a word issued by the host leaves the
record as it is. -/
theorem stepWithoutCommand : Obligations.StepWithoutCommand :=
  ⟨fun _ => step_of_no_command, fun _ _ => step_of_recorded,
    fun _ _ _ _ hfault => ⟨hfault, step_of_recorded hfault⟩⟩

/-- Settles O4: the decoder rejects an illegal word. -/
theorem illegalWordAnswersEIllegal : Obligations.IllegalWordAnswersEIllegal := by
  intro s w rest hfault hcommands hillegal
  obtain ⟨hrejects, -⟩ := decoderRejectsExactlyIllegalWords w
  obtain ⟨e, hdecode⟩ := hrejects.1 hillegal
  exact step_of_decode_eq_error hfault hcommands hdecode

/-! One response or one recorded read -/

section
variable {i : Instr} {cells : List CellAddr} {s t : State}

/-- No command stops or is refused: each has a next state (60_exceptions.md R300, R306). -/
theorem exists_exec_eq_next (i : Instr) (s : State) : ∃ t, exec i s = .next t := by
  cases i <;> exact ⟨_, rfl⟩

/-- `t` has one legal response more than `s`, and no fault or word besides those of `s`. -/
def AnsweredOnce (s t : State) : Prop :=
  t.commands = s.commands ∧ t.faultRecord = s.faultRecord ∧
    ∃ r, t.responses = s.responses ++ [r] ∧ r.legal = true

theorem Transacted.answeredOnce (h : Transacted cells s t) : AnsweredOnce s t := by
  cases h with
  | mk legal => exact ⟨rfl, rfl, _, rfl, legal⟩

theorem ExecOutcome.answeredOnce_or_recorded (h : ExecOutcome i s t) :
    AnsweredOnce s t ∨ ∃ a, s.cell a = none ∧ t = recordFault (.uninitRead a) s := by
  cases h with
  | recorded undefined => exact .inr ⟨_, undefined, rfl⟩
  | answered legal => exact .inl ⟨rfl, rfl, _, rfl, legal⟩
  | transacted ran => exact .inl ran.answeredOnce

theorem exec_answeredOnce_or_recorded (h : exec i s = .next t) :
    AnsweredOnce s t ∨ ∃ a, s.cell a = none ∧ t = recordFault (.uninitRead a) s := by
  by_cases hi : i = .init
  · subst hi
    exact .inl (transacted_of_exec_init h).answeredOnce
  · exact (execOutcome_of_exec hi h).answeredOnce_or_recorded

end

/-- Settles O9: a word that decodes runs its command, which answers or records; any other word answers `E_ILLEGAL`. -/
theorem everyCommandAnswersOnce : Obligations.EveryCommandAnswersOnce := by
  intro s w rest hfault hcommands
  cases hdecode : decode w with
  | error e =>
    exact ⟨_, step_of_decode_eq_error hfault hcommands hdecode, rfl,
      .inl ⟨_, rfl, legal_value_zero .eIllegal, hfault⟩⟩
  | ok i =>
    obtain ⟨t, hexec⟩ := exists_exec_eq_next i { s with commands := rest }
    refine ⟨t, (stepRunsDecodedCommand s w rest i hfault hcommands hdecode).trans hexec, ?_⟩
    rcases exec_answeredOnce_or_recorded hexec with ⟨htaken, hrecord, r, hr, hlegal⟩ | ⟨a, hnone, rfl⟩
    · exact ⟨htaken, .inl ⟨r, hr, hlegal, hrecord.trans hfault⟩⟩
    · exact ⟨rfl, .inr ⟨a, hnone, rfl⟩⟩

/-! The errors of each command -/

/-- The errors other than `E_BUS` that a command answers: before INIT, at a read-only cell, and for a floating-point
operand outside the domain (60_exceptions.md R302, R304, R307). -/
def refusals (i : Instr) : List RespCode :=
  match i with
  | .refresh | .commit => [.eNotinit]
  | .wrreg _ _ => [.eReadonly]
  | .setcCjt _ | .setcLthft _ | .setcLtlft _ | .setcCjhf _ | .setcCjlf _ | .setcCjto _
  | .setfCjt _ | .setfLthft _ | .setfLtlft _ | .setfCjhf _ | .setfCjlf _ | .setfCjto _ => [.eFpdomain]
  | _ => []

/-- What the responses say of a command that made `t` of `s`: none was given, the command ran to `OK` or to a failed
exchange, or it was refused and changed nothing besides (60_exceptions.md R311). -/
inductive Answer (i : Instr) (s t : State) : Prop where
  | silent (responses : t.responses = s.responses)
  | served {c : RespCode} {v : Word} (code : c = .ok ∨ c = .eBus)
      (responses : t.responses = s.responses ++ [⟨c.bits, v⟩])
  | refused {c : RespCode} (code : c ∈ refusals i) (state : t = raise c s)

section
variable {i : Instr} {s t : State}

theorem Answer.of_respond {c : RespCode} {v : Word} {u : State} (code : c = .ok ∨ c = .eBus)
    (hsame : u.responses = s.responses) : Answer i s (respond c v u) :=
  .served code (by rw [respond_responses, hsame])

theorem Answer.of_withRead {α : Type} {r : Except CellAddr α} {k : α → State} (hk : ∀ v, Answer i s (k v)) :
    Answer i s (withRead r s k) := by
  cases r with
  | error a => exact .silent rfl
  | ok v => exact hk v

theorem Answer.of_setRaw (q : Quantity) (v : Int) : Answer i s (setRaw q v s) :=
  .of_respond (.inl rfl) (by rw [writeRaw_eq])

theorem Answer.of_setFloat (hi : .eFpdomain ∈ refusals i) (q : Quantity) (convert : Quantity → F32 → Option Int)
    (f : Word) : Answer i s (setFloat q convert f s) := by
  rcases setFloat_cases (q := q) (c := convert) (f := f) (s := s) rfl with ⟨-, h⟩ | ⟨n, -, h⟩
  · exact .refused hi h
  · rw [h]; exact .of_setRaw q n

/-- The exchanges of a frame end with `OK` or `E_BUS` (41_transactions.md R122). -/
theorem exchangeCode_eq_ok_or_eBus (outs : List Byte) (ans : Nat → Config.BusAnswer) :
    exchangeCode outs ans = .ok ∨ exchangeCode outs ans = .eBus := by
  induction outs generalizing ans with
  | nil => exact .inl rfl
  | cons out rest ih =>
    cases h0 : ans 0 with
    | fail => exact .inr (exchangeCode_cons_of_fail h0)
    | byte b => rw [exchangeCode_cons_of_byte h0]; exact ih _

theorem readTransaction_code (s : State) : (readTransaction s).1 = .ok ∨ (readTransaction s).1 = .eBus := by
  rw [readTransaction, transaction_code]
  exact exchangeCode_eq_ok_or_eBus ..

theorem readTransaction_responses (s : State) : (readTransaction s).2.responses = s.responses := by
  rw [readTransaction, transaction_eq]

theorem answer_init (h : exec .init s = .next t) : Answer .init s t := by
  rw [exec_init_eq] at h
  cases h
  exact .of_respond (readTransaction_code _) (by rw [readTransaction_responses, configureLine_responses])

theorem exec_refresh_of_not_initialized (h : s.initialized = false) : exec .refresh s = .next (raise .eNotinit s) :=
  congrArg _ (if_neg (by simp [h]))

theorem exec_commit_of_not_initialized (h : s.initialized = false) : exec .commit s = .next (raise .eNotinit s) :=
  congrArg _ (if_neg (by simp [h]))

theorem answer_refresh (h : exec .refresh s = .next t) : Answer .refresh s t := by
  cases hinit : s.initialized with
  | false =>
    rw [exec_refresh_of_not_initialized hinit] at h
    cases h
    exact .refused (List.mem_singleton_self _) rfl
  | true =>
    rcases readTransaction_code s with hok | hfail
    · obtain ⟨b, hstatus⟩ := Option.ne_none_iff_exists'.1 (readTransaction_cell_ne_none hok 15#4)
      rw [exec_refresh_of_ok hinit hok hstatus] at h
      cases h
      exact .of_respond (.inl rfl) (readTransaction_responses s)
    · rw [exec_refresh_of_eBus hinit hfail] at h
      cases h
      exact .of_respond (.inr rfl) (readTransaction_responses s)

theorem answer_commit (h : exec .commit s = .next t) : Answer .commit s t := by
  rcases exec_commit_cases h with hraise | ⟨a, rfl⟩ | ⟨outs, -, rfl⟩
  · exact .refused (List.mem_singleton_self _) hraise
  · exact .silent rfl
  · exact .served (exchangeCode_eq_ok_or_eBus ..) (commitSend_responses outs s)

theorem exec_wrreg_of_ge (s : State) {a : CellAddr} (b : Byte) (h : 12 ≤ a.toNat) :
    exec (.wrreg a b) s = .next (raise .eReadonly s) :=
  congrArg _ (if_pos h)

theorem answer_wrreg {a : CellAddr} {b : Byte} (h : exec (.wrreg a b) s = .next t) : Answer (.wrreg a b) s t := by
  rcases Nat.lt_or_ge a.toNat 12 with ha | ha
  · rw [exec_wrreg_of_lt s b ha] at h
    cases h
    exact .of_respond (.inl rfl) rfl
  · rw [exec_wrreg_of_ge s b ha] at h
    cases h
    exact .refused (List.mem_singleton_self _) rfl

theorem answer_rstdef (h : exec .rstdef s = .next t) : Answer .rstdef s t := by
  rw [exec_rstdef, writeFrom_eq] at h
  cases h
  exact .of_respond (.inl rfl) rfl

theorem answer_of_exec (h : exec i s = .next t) : Answer i s t := by
  cases i with
  | init => exact answer_init h
  | refresh => exact answer_refresh h
  | commit => exact answer_commit h
  | rstdef => exact answer_rstdef h
  | wrreg => exact answer_wrreg h
  | rdreg | getAvg | getTctype | getFaults | setAvg | setTctype
  | getLtc | getCjt | getLthft | getLtlft | getCjhf | getCjlf | getCjto
  | getcLtc | getcCjt | getcLthft | getcLtlft | getcCjhf | getcCjlf | getcCjto
  | getfLtc | getfCjt | getfLthft | getfLtlft | getfCjhf | getfCjlf | getfCjto =>
    cases h
    exact .of_withRead fun _ => .of_respond (.inl rfl) rfl
  | setCjt | setLthft | setLtlft | setCjhf | setCjlf | setCjto => cases h; exact .of_setRaw ..
  | setcCjt | setcLthft | setcLtlft | setcCjhf | setcCjlf | setcCjto
  | setfCjt | setfLthft | setfLtlft | setfCjhf | setfCjlf | setfCjto =>
    cases h
    exact .of_setFloat (List.mem_singleton_self _) ..

/-- A response that is neither `OK` nor `E_BUS` is a refusal of the command. -/
theorem Answer.eq_raise (h : Answer i s t) {r : Response} (hr : t.responses = s.responses ++ [r])
    (hok : r.code ≠ 0#3) (hbus : r.code ≠ 4#3) : ∃ c ∈ refusals i, r = ⟨c.bits, 0#32⟩ ∧ t = raise c s := by
  cases h with
  | silent hsame => rw [hsame] at hr; simp at hr
  | served hcode hserved =>
    obtain rfl := List.singleton_inj.1 (List.append_cancel_left (hserved.symm.trans hr))
    rcases hcode with rfl | rfl
    · exact absurd rfl hok
    · exact absurd rfl hbus
  | refused hc hstate =>
    subst hstate
    exact ⟨_, hc, (List.singleton_inj.1 (List.append_cancel_left hr)).symm, rfl⟩

theorem RespCode.bits_injective : Function.Injective RespCode.bits := by
  intro c d
  cases c <;> cases d <;> decide

/-- A command answers an error other than `E_BUS` only if it is one of its own. -/
theorem responses_ne_of_notMem_refusals {c : RespCode} (hi : c ∉ refusals i) (hok : c ≠ .ok) (hbus : c ≠ .eBus)
    (h : exec i s = .next t) (v : Word) : t.responses ≠ s.responses ++ [⟨c.bits, v⟩] := by
  intro hr
  obtain ⟨d, hd, hcode, -⟩ := (answer_of_exec h).eq_raise hr (RespCode.bits_injective.ne hok)
    (RespCode.bits_injective.ne hbus)
  rw [RespCode.bits_injective (congrArg Response.code hcode)] at hi
  exact hi hd

theorem eReadonly_notMem_refusals (hi : ∀ a b, i ≠ .wrreg a b) : .eReadonly ∉ refusals i := by
  cases i with
  | wrreg a b => exact absurd rfl (hi a b)
  | _ => simp [refusals]

theorem eNotinit_notMem_refusals (hrefresh : i ≠ .refresh) (hcommit : i ≠ .commit) : .eNotinit ∉ refusals i := by
  cases i with
  | refresh => exact absurd rfl hrefresh
  | commit => exact absurd rfl hcommit
  | _ => simp [refusals]

end

/-- Settles O10: such a response is a refusal, which is the state with the response and nothing else. -/
theorem errorsArePrecise : Obligations.ErrorsArePrecise := by
  intro i s t r h hr hok hbus
  obtain ⟨c, -, rfl, rfl⟩ := (answer_of_exec h).eq_raise hr hok hbus
  rfl

/-- Settles O13: WRREG looks at the address alone, and `E_READONLY` is a refusal of no other command. -/
theorem wrregRefusesReadOnlyCells : Obligations.WrregRefusesReadOnlyCells := by
  refine ⟨fun s a b => exec_wrreg_of_ge s b, fun s a b ha => ?_, fun i s t v hi h =>
    responses_ne_of_notMem_refusals (eReadonly_notMem_refusals hi) nofun nofun h v⟩
  have hlt : a.toNat < 12 := by rcases ha with rfl | rfl <;> decide
  exact ⟨_, exec_wrreg_of_lt s b hlt, (cell_setCell s a a b).trans (if_pos rfl), rfl⟩

/-- Settles O50: both commands look at `initialized` first, and `E_NOTINIT` is a refusal of no other command. -/
theorem transactionsNeedInit : Obligations.TransactionsNeedInit :=
  ⟨fun _ hinit => ⟨exec_refresh_of_not_initialized hinit, exec_commit_of_not_initialized hinit⟩,
    fun _ _ _ v hrefresh hcommit h =>
      responses_ne_of_notMem_refusals (eNotinit_notMem_refusals hrefresh hcommit) nofun nofun h v⟩

end Sys2Proof.Machine
end
